-- ==== Sys2Proof/Word.lean ====
section
/-! DEFINITION. The widths of the deadline-scheduler arbiter's values, one name for each
(00_scope.md R8; 10_state.md R21 to R33; 30_encoding.md R101, R104). All are `abbrev`s of
`BitVec`, so arithmetic on them is modulo 2^N as R8 says. -/

namespace Sys2Proof

/-- A slot number, 0 to 15 (20_memory.md R71). -/
abbrev Slot := BitVec 4

/-- A handle (`id`), the `u16` a registration returns (20_memory.md R73, R76). -/
abbrev Handle := BitVec 16

/-- A 32-bit number of microseconds or timer ticks: a period, a delay, a deadline, an interval,
`CNT`, `ARR` (10_state.md R21, R23, R32, R34, R35). -/
abbrev Micros := BitVec 32

/-- A callback token, `CBW` = 32 bits, opaque but for the null test (10_state.md R22; D25). -/
abbrev Token := BitVec 32

/-- A bitmap over the slots: 32 bits of which 15:0 are used (20_memory.md R77). -/
abbrev Bitmap := BitVec 32

/-- The packed sorted index: sixteen nibbles (20_memory.md R74). -/
abbrev Packed := BitVec 64

/-- The scheduler tick `G` (10_state.md R31). -/
abbrev Tick := BitVec 64

/-- The generation counter (10_state.md R33; D10). -/
abbrev Generation := BitVec 12

/-- A stimulus word (30_encoding.md R101). -/
abbrev StimulusWord := BitVec 68

/-- A response word (30_encoding.md R104). -/
abbrev ResponseWord := BitVec 66

end Sys2Proof
end

