-- ==== Sys2Proof/Config.lean ====
section
/-! DEFINITION. The implementation parameters (00_scope.md R6, R7): the constants the document
fixes, and the two platform parameters it leaves open, which State holds as plain data so that
every statement about a state is a statement about every platform (log 2). -/

namespace Sys2Proof.Config

/-- `kMaxTasks`, the number of slots (R6; D30). -/
def kMaxTasks : Nat := 16

/-- `INVALID_ID`, the failure sentinel (R6). -/
def invalidId : Handle := 0x00FF#16

/-- `kMaxIntervalUs` = 2^31 (R6). -/
def kMaxIntervalUs : Micros := 0x80000000#32

/-- `FREQUENCY`, timer ticks per second (R6). -/
def frequency : Nat := 1000000

/-- The generation step (R6). -/
def generationStep : Generation := 2#12

/-- `GEN_INIT`, the reset value of the generation counter (R7; D10). -/
def genInit : Generation := 1#12

end Sys2Proof.Config

namespace Sys2Proof

/-- The open parameters of 00_scope.md R7, fixed for one machine and written by no operation. -/
structure Platform where
  /-- `TIMER_CLK_HZ`, the frequency of the clock into the timer's prescaler. -/
  timerClkHz : Nat
  /-- `PSC_MAX`, the largest value of the prescaler register. -/
  pscMax : Nat
  deriving DecidableEq, Repr

/-- The values 92_eei_decisions.md lists as a default a model may take (DESIGN CHOICE, log 2:
no statement rests on them). -/
def Platform.suggested : Platform := ⟨240000000, 65535⟩

end Sys2Proof
end

