-- ==== Sys2Proof/Syntax.lean ====
section
/-! DEFINITION. What crosses the block's boundary (30_encoding.md R100): the ten stimuli of the
opcode map (R102), the words that carry them with the side they arrive from, and what leaves the
block on the response port (R104) and the callback-dispatch port (R106). -/

namespace Sys2Proof

/-- The stimuli, one constructor per row of spec/opcode_table.json (30_encoding.md R102). -/
inductive Instr where
  /-- `start() -> void`, 43_scheduler_api.md R180. -/
  | start
  /-- `register_task(period_us, cb) -> u16`, 43_scheduler_api.md R181. -/
  | registerTask (periodUs : Micros) (cb : Token)
  /-- `set_timeout(delay_us, cb) -> u16`, 43_scheduler_api.md R182. -/
  | setTimeout (delayUs : Micros) (cb : Token)
  /-- `unregister_task(id) -> bool`, 43_scheduler_api.md R184. -/
  | unregisterTask (id : Handle)
  /-- `cancel_timeout(id) -> bool`, 43_scheduler_api.md R186. -/
  | cancelTimeout (id : Handle)
  /-- `update() -> void`, 44_isr_and_drain.md R220. -/
  | update
  /-- `get_global_tick() -> u64`, 43_scheduler_api.md R187. -/
  | getGlobalTick
  /-- `on_timer_update() -> void`, 44_isr_and_drain.md R210. -/
  | onTimerUpdate
  /-- The end of a callback body, 44_isr_and_drain.md R221. -/
  | cbReturn
  /-- One count of the timer, 42_timer_driver.md R161. -/
  | tick
  deriving DecidableEq, Repr

/-- Where a stimulus comes from (30_encoding.md R100): a host command arrives on the command
port, an environment event does not. -/
inductive Source where
  /-- The command port. -/
  | commandPort
  /-- The timer, the interrupt agent or the end of a callback body. -/
  | environment
  deriving DecidableEq, Repr

/-- The kind column of the opcode map (30_encoding.md R102). -/
def Instr.source : Instr → Source
  | .start => .commandPort
  | .registerTask _ _ => .commandPort
  | .setTimeout _ _ => .commandPort
  | .unregisterTask _ => .commandPort
  | .cancelTimeout _ => .commandPort
  | .update => .commandPort
  | .getGlobalTick => .commandPort
  | .onTimerUpdate => .environment
  | .cbReturn => .environment
  | .tick => .environment

/-- One recorded stimulus: a 68-bit word and the side it arrives from. -/
structure Stimulus where
  /-- The side it arrives from. -/
  source : Source
  /-- The word, in the one format of 30_encoding.md R101. -/
  word : StimulusWord
  deriving DecidableEq, Repr

/-- The status field of a response (30_encoding.md R104). -/
inductive Status where
  /-- The operation was performed, including when it reports failure by its value. -/
  | ok
  /-- The word decodes to no command (R108). -/
  | illegal
  /-- A legal command the gate does not accept now (R110). -/
  | refused
  /-- START raised `ConfigFault` (60_exceptions.md R243). -/
  | fault
  deriving DecidableEq, Repr

/-- A response before it is laid out in its word (30_encoding.md R104, R105). -/
structure Response where
  /-- The status field. -/
  status : Status
  /-- The value field; 0 when `status` is not `ok`. -/
  value : BitVec 64
  deriving DecidableEq, Repr

/-- What leaves the block: a response, or a callback-dispatch event (token, slot)
(30_encoding.md R104, R106). -/
inductive Output where
  /-- One word on the response port. -/
  | response (r : Response)
  /-- One event on the callback-dispatch port. -/
  | dispatch (token : Token) (slot : Slot)
  deriving DecidableEq, Repr

end Sys2Proof
end

