-- ==== Sys2Proof/Machine/State.lean ====
section
/-! DEFINITION. The whole state of the block (10_state.md R20 to R41), its value after reset
(R46), and the named ways a step can stop. -/

namespace Sys2Proof.Machine

/-- One task record (10_state.md R20 to R25). -/
structure TaskRecord where
  /-- `next_fire_us`, the deadline (R21). -/
  nextFireUs : Micros
  /-- `callback`, the opaque token (R22). -/
  callback : Token
  /-- `period_us`, after the zero-to-one clamp (R23). -/
  periodUs : Micros
  /-- `id`, the handle (R24). -/
  id : Handle
  /-- `repeating`: true = periodic, false = one-shot (R25). -/
  repeating : Bool
  deriving DecidableEq, Repr

/-- What a task record holds at reset: the spec gives no value (R46); DESIGN CHOICE, log 1. -/
def TaskRecord.atReset : TaskRecord := ⟨0#32, 0#32, 0#32, 0#16, false⟩

/-- The state of the block: task register file, scheduler registers, timer registers, sequencer
latches (10_state.md), then the platform parameters (00_scope.md R7, log 2) and the model's own
two fields: the stimuli not yet taken (log 3) and what has left the block (log 5). -/
structure State where
  /-- The task register file, by slot number (R20). -/
  tasks : Vector TaskRecord 16
  /-- `free`: bit `i` set = slot `i` is unused (R27). -/
  free : Bitmap
  /-- `ready`: bit `i` set = slot `i` has fired and awaits execution (R28). -/
  ready : Bitmap
  /-- `sorted`: slot numbers, earliest deadline in the lowest nibble (R29). -/
  sorted : Packed
  /-- `count`: how many nibbles of `sorted` are in use (R30). -/
  count : BitVec 5
  /-- `G`, the scheduler's tick (R31). -/
  g : Tick
  /-- `cur`, the interval last programmed; 0 = Idle (R32). -/
  cur : Micros
  /-- `gen`, the generation counter (R33). -/
  gen : Generation
  /-- `CNT`, the timer's counter (R34). -/
  cnt : Micros
  /-- `ARR`, the timer's reload register (R35). -/
  arr : Micros
  /-- `PSC`, the prescaler register, its width open (R36, log 13). -/
  psc : Nat
  /-- `CEN`, the counter is running (R37). -/
  cen : Bool
  /-- `UIF`, an update event is pending (R38, R40). -/
  uif : Bool
  /-- `UIE`, the update interrupt is enabled (R39). -/
  uie : Bool
  /-- A START has succeeded (R41). -/
  started : Bool
  /-- A START has raised `ConfigFault` (R41). -/
  faulted : Bool
  /-- A callback is in flight (R41). -/
  updActive : Bool
  /-- The slot whose callback is in flight; meaningful while `updActive` (R41). -/
  updSlot : Slot
  /-- The platform parameters; no operation writes them. -/
  platform : Platform
  /-- The stimuli not yet taken, the next one first (20_memory.md R85: the schedule is an input). -/
  stimuli : List Stimulus
  /-- What has left the response port and the callback-dispatch port, oldest first. -/
  outputs : List Output
  deriving DecidableEq, Repr

/-- The state after power-on reset (10_state.md R46; 70_reset_and_hazards.md R281). The task
records, `cnt`, `arr`, `psc` and `updSlot` have no value in the spec: DESIGN CHOICE, log 1; the
platform: log 2. -/
def State.reset : State where
  tasks := Vector.replicate 16 TaskRecord.atReset
  free := 0x0000FFFF#32
  ready := 0#32
  sorted := 0#64
  count := 0#5
  g := 0#64
  cur := 0#32
  gen := Config.genInit
  cnt := 0#32
  arr := 0#32
  psc := 0
  cen := false
  uif := false
  uie := false
  started := false
  faulted := false
  updActive := false
  updSlot := 0#4
  platform := Platform.suggested
  stimuli := []
  outputs := []

/-- The faults of the model: states in which a rule's own precondition fails, to which the spec
gives no behaviour and asks for a fault (93_implementation_defined.md U9, U10). All are safe: the
model stops where it does not know the hardware. -/
inductive Fault where
  /-- Raised by `front_id` and `pop_front` with `count = 0` (41_sorted_index.md R145, R146, D15);
  safe: both callers test `count` first. -/
  | indexEmpty
  /-- Raised by `insert_sorted` with `count >= 16` (41_sorted_index.md R141, U9); safe: it can be
  reached only after the host has broken duty H4 (70_reset_and_hazards.md R298). -/
  | indexFull
  /-- Raised when the lowest set bit of `free` or `ready` is above bit 15 (20_memory.md R71: an
  out-of-range slot address cannot occur); safe. -/
  | slotOutOfRange
  /-- Raised by TICK with `CNT > ARR` (42_timer_driver.md R161, U10); safe: unreachable by V9. -/
  | counterPastReload
  /-- Raised by ON_TIMER_UPDATE when a seventeenth entry is due (44_isr_and_drain.md R211: at most
  16 iterations); safe: unreachable while periods lie in 1 to 2^31 - 1. -/
  | firingUnbounded
  /-- Raised by `claimStep` alone, never by a step: a START that raised `ConfigFault`
  (60_exceptions.md R243: a fault outcome that is never final; log 7); safe. -/
  | configurationFault
  deriving DecidableEq, Repr

/-- The refusals: a trace that records an event the environment cannot produce
(30_encoding.md R108, R110; D32, D33, D35). All are safe: the model says nothing of such a run. -/
inductive Refusal where
  /-- Raised by an arm of `exec` whose instruction has no meaning yet; safe. -/
  | notModelled (mnemonic : String)
  /-- Raised by a step whose environment-event word has a reserved opcode, a nonzero unused field
  or the opcode of a host command (R108: malformed in a trace); safe. -/
  | malformedEvent
  /-- Raised by TICK while the counter does not run (42_timer_driver.md R161, D35); safe. -/
  | tickNotEnabled
  /-- Raised by ON_TIMER_UPDATE while the interrupt line is low (60_exceptions.md R247, D32);
  safe. -/
  | interruptNotEnabled
  /-- Raised by CB_RETURN while no callback is in flight (44_isr_and_drain.md R221, D32); safe. -/
  | callbackReturnNotEnabled
  /-- Raised by `claimStep` alone, never by a step: a command answered ILLEGAL (60_exceptions.md
  R244, D3; log 6); safe. -/
  | illegalCommand
  /-- Raised by `claimStep` alone, never by a step: a command answered REFUSED (60_exceptions.md
  R244, D3; log 6); safe. -/
  | refusedCommand
  deriving DecidableEq, Repr

end Sys2Proof.Machine
end

