-- ==== Sys2Proof/Machine/Primitives.lean ====
section
/-! DEFINITION. The primitives of 00_scope.md R8 to R11 and of 20_memory.md R77, R90: signed
difference, bit scan, nibbles of the packed index, bits of a bitmap, records of the task register
file, and the emission of an output (30_encoding.md R104 to R106). -/

namespace Sys2Proof.Machine

/-- `sdiff(a, b)`: the wrapping 32-bit difference read as a signed number (00_scope.md R9). -/
def sdiff (a b : Micros) : Int := (a - b).toInt

/-- `ctz(v)`: the index of the lowest set bit; `none` exactly when `v = 0`, for which no rule
evaluates it (00_scope.md R10). -/
def ctz {n : Nat} (v : BitVec n) : Option Nat := (List.range n).find? fun i => v.getLsbD i

/-- `nib(v, p)` = `v[4p+3:4p]` (00_scope.md R11). -/
def nib (v : Packed) (p : Nat) : Slot := v.extractLsb' (4 * p) 4

/-- `lowmask(p)`: the nibbles below position `p` (00_scope.md R11). -/
def lowmask (p : Nat) : Packed := (1#64 <<< (4 * p)) - 1#64

/-- `rep16(s)`: every nibble equal to `s` (00_scope.md R11). -/
def rep16 (i : Slot) : Packed := 0x1111111111111111#64 * i.setWidth 64

/-- Bit `i` of a bitmap (20_memory.md R77). -/
def bit (v : Bitmap) (i : Slot) : Bool := v.getLsbD i.toNat

/-- A bitmap with bit `i` set (20_memory.md R77). -/
def setBit (v : Bitmap) (i : Slot) : Bitmap := v ||| (1#32 <<< i.toNat)

/-- A bitmap with bit `i` cleared (20_memory.md R77). -/
def clearBit (v : Bitmap) (i : Slot) : Bitmap := v &&& ~~~(1#32 <<< i.toNat)

/-- The slot number of a bit index, when it is one (20_memory.md R71). -/
def slotOfIndex (i : Nat) : Except Fault Slot :=
  if i < Config.kMaxTasks then .ok (BitVec.ofNat 4 i) else .error .slotOutOfRange

/-- `task[i]` (00_scope.md R12). -/
def State.record (s : State) (i : Slot) : TaskRecord := s.tasks[i.toNat]'(i.isLt)

/-- `task[i] <- r` (00_scope.md R12). -/
def State.setRecord (s : State) (i : Slot) (r : TaskRecord) : State :=
  { s with tasks := s.tasks.set i.toNat r i.isLt }

/-- `G32` = `G[31:0]` (10_state.md R31). -/
def State.g32 (s : State) : Micros := s.g.setWidth 32

/-- An output leaves the block. -/
def State.emit (s : State) (o : Output) : State := { s with outputs := s.outputs ++ [o] }

/-- One response word on the response port (30_encoding.md R104). -/
def State.respond (s : State) (st : Status) (v : BitVec 64) : State := s.emit (.response ⟨st, v⟩)

/-- What left the block between two states of one run, oldest first. -/
def outputsSince (s t : State) : List Output := t.outputs.drop s.outputs.length

/-- The response among some outputs, the first one if there are more (30_encoding.md R104). -/
def responseIn (os : List Output) : Option Response :=
  os.findSome? fun o =>
    match o with
    | .response r => some r
    | .dispatch _ _ => none

end Sys2Proof.Machine
end

