-- ==== Sys2Proof/Machine/Flags.lean ====
section
/-! DEFINITION. The status bits and what is read from them: the two output lines
(30_encoding.md R107), Idle and Armed (10_state.md R43), the condition of a slot (R45), the
command gate (30_encoding.md R110) and the enabling conditions of the environment events
(20_memory.md R85). -/

namespace Sys2Proof.Machine

/-- The interrupt line, the level `UIF & UIE` (30_encoding.md R107). -/
def State.irqLine (s : State) : Bool := s.uif && s.uie

/-- The fault line, the level `faulted` (30_encoding.md R107). -/
def State.faultLine (s : State) : Bool := s.faulted

/-- Idle: nothing scheduled, timer disabled (10_state.md R43). -/
def State.isIdle (s : State) : Bool := s.count == 0#5 && !s.cen && s.cur == 0#32

/-- Armed: something scheduled, timer enabled (10_state.md R43). -/
def State.isArmed (s : State) : Bool := s.count != 0#5 && s.cen && s.cur != 0#32

/-- Slot `i` is unused (10_state.md R27). -/
def State.isFree (s : State) (i : Slot) : Bool := bit s.free i

/-- Slot `i` has fired and awaits execution (10_state.md R28). -/
def State.isReady (s : State) (i : Slot) : Bool := bit s.ready i

/-- Slot `i` is present in a position below `count` (00_scope.md R16: a scheduled slot). -/
def State.isScheduled (s : State) (i : Slot) : Bool :=
  (List.range s.count.toNat).any fun p => nib s.sorted p == i

/-- Slot `i` holds the callback in flight (10_state.md R41, R45). -/
def State.isInFlight (s : State) (i : Slot) : Bool := s.updActive && s.updSlot == i

/-- The five per-slot conditions of 10_state.md R45. -/
inductive SlotCondition where
  /-- The slot is unused. -/
  | free
  /-- In the index, not ready. -/
  | scheduled
  /-- Fired, not in the index. -/
  | ready
  /-- A periodic task that has fired and is already re-armed. -/
  | scheduledAndReady
  /-- A one-shot whose callback has been dispatched and has not returned. -/
  | inFlight
  deriving DecidableEq, Repr

/-- The condition of slot `i` (10_state.md R45), read from the two bitmaps and the index
(40_slot_allocator.md R132); an occupied slot in neither store is the one in flight. -/
def State.slotCondition (s : State) (i : Slot) : SlotCondition :=
  if s.isFree i then .free
  else if s.isScheduled i then (if s.isReady i then .scheduledAndReady else .scheduled)
  else if s.isReady i then .ready
  else .inFlight

/-- The classes of host commands the gate tells apart (30_encoding.md R110). -/
inductive CommandClass where
  /-- START. -/
  | start
  /-- UPDATE. -/
  | update
  /-- The five commands a callback may issue as well. -/
  | callable
  deriving DecidableEq, Repr

/-- The command gate: its conditions tested in the order of 30_encoding.md R110. -/
def State.gateAccepts (s : State) (c : CommandClass) : Bool :=
  if s.faulted then false
  else if !s.started then c == .start
  else if !s.updActive then c != .start
  else c == .callable

/-- TICK is enabled (20_memory.md R85 (a); 42_timer_driver.md R161). -/
def State.tickEnabled (s : State) : Bool := s.started && !s.faulted && s.cen

/-- ON_TIMER_UPDATE is enabled: the interrupt line is high (20_memory.md R85 (b);
60_exceptions.md R247). -/
def State.interruptEnabled (s : State) : Bool := s.irqLine

/-- CB_RETURN is enabled (20_memory.md R85 (d)). -/
def State.callbackReturnEnabled (s : State) : Bool := s.updActive

end Sys2Proof.Machine
end

