-- ==== Sys2Proof/Machine/Operands.lean ====
section
/-! DEFINITION. The operands of the operations: the period with its clamp and its bound
(43_scheduler_api.md R183), the deadline (R188 (a)), the handle, how it is made and how it is
translated to a slot (20_memory.md R76, R83), and the interval of a distance
(44_isr_and_drain.md R212). -/

namespace Sys2Proof.Machine

/-- "silently clamped to 1": the period after the zero-to-one clamp (43_scheduler_api.md R183). -/
def clampPeriod (period : Micros) : Micros := if period = 0#32 then 1#32 else period

/-- The arguments of a registration are valid: callback not null, the clamped period below
`kMaxIntervalUs` (43_scheduler_api.md R183, unsigned comparison R188 (c)). -/
def registrationValid (period : Micros) (cb : Token) : Bool :=
  cb != 0#32 && clampPeriod period < Config.kMaxIntervalUs

/-- A deadline `period` after the tick `now`, modulo 2^32 (R188 (a)). -/
def deadlineAfter (now period : Micros) : Micros := now + period

/-- The handle of a periodic task: `zext_16(slot)` (20_memory.md R76). -/
def periodicHandle (i : Slot) : Handle := i.setWidth 16

/-- The handle of a one-shot: generation in bits 15:4, slot in bits 3:0 (20_memory.md R76). -/
def oneShotHandle (k : Generation) (i : Slot) : Handle := k ++ i

/-- `id mod kMaxTasks` = `id[3:0]` (20_memory.md R79). -/
def handleSlot (id : Handle) : Slot := id.extractLsb' 0 4

/-- The handle is in the range of periodic ids (20_memory.md R83). -/
def isPeriodicId (id : Handle) : Bool := id.toNat < Config.kMaxTasks

/-- The advance of the generation, modulo 2^12 (43_scheduler_api.md R188 (f)). -/
def nextGeneration (k : Generation) : Generation := k + Config.generationStep

/-- `interval_for(d)`: 1 for every `d <= 1`, else `d` (44_isr_and_drain.md R212, D17). -/
def intervalFor (d : Int) : Micros := if d ≤ 1 then 1#32 else BitVec.ofInt 32 d

/-- The prescaler value of a platform, `none` for each of the three configuration errors: zero
quotient, remainder, quotient above the register (42_timer_driver.md R162, D20). -/
def prescalerOf (p : Platform) : Option Nat :=
  if p.timerClkHz / Config.frequency = 0 then none
  else if p.timerClkHz % Config.frequency ≠ 0 then none
  else if p.timerClkHz / Config.frequency - 1 > p.pscMax then none
  else some (p.timerClkHz / Config.frequency - 1)

end Sys2Proof.Machine
end

