-- ==== Sys2Proof/Machine/Ops.lean ====
section
/-! DEFINITION. The micro-operations (40_slot_allocator.md, 41_sorted_index.md,
42_timer_driver.md, 43_scheduler_api.md R183 and R185, 44_isr_and_drain.md R210, R213, R220), the
errors (60_exceptions.md R243) and the interrupt's entry (R249). A micro-operation with a
precondition answers a `Fault` where it fails (93_implementation_defined.md U9). -/

namespace Sys2Proof.Machine

/-! ### Slot allocator -/

/-- `allocate_slot()`: takes the lowest free slot; `none` is the sentinel 0xFF of an exhausted
pool, which changes nothing (40_slot_allocator.md R130). -/
def allocateSlot (s : State) : Except Fault (Option (Slot × State)) :=
  match ctz s.free with
  | none => .ok none
  | some k =>
    match slotOfIndex k with
    | .error f => .error f
    | .ok i => .ok (some (i, { s with free := clearBit s.free i }))

/-- `release_slot(i)` (40_slot_allocator.md R131). -/
def releaseSlot (i : Slot) (s : State) : State :=
  { s with ready := clearBit s.ready i, free := setBit s.free i }

/-! ### Sorted index -/

/-- `get_at(p)` (41_sorted_index.md R140). -/
def getAt (s : State) (p : Nat) : Slot := nib s.sorted p

/-- The deadline of the task at position `p` (20_memory.md R90, position-indirect). -/
def deadlineAt (s : State) (p : Nat) : Micros := (s.record (getAt s p)).nextFireUs

/-- The bisection loop of 41_sorted_index.md R142; the first argument bounds its iterations. -/
def searchLoop (s : State) (new : Micros) : Nat → Nat → Nat → Nat
  | 0, left, _ => left
  | fuel + 1, left, right =>
    if left < right then
      if sdiff (deadlineAt s (left + (right - left) / 2)) new ≤ 0 then
        searchLoop s new fuel (left + (right - left) / 2 + 1) right
      else searchLoop s new fuel left (left + (right - left) / 2)
    else left

/-- `search_position(new)`: at most 5 iterations (41_sorted_index.md R142, D12). -/
def searchPosition (s : State) (new : Micros) : Nat := searchLoop s new 5 0 s.count.toNat

/-- The packed index with slot `i` put in at position `p` (41_sorted_index.md R141). -/
def insertNibble (v : Packed) (p : Nat) (i : Slot) : Packed :=
  (v &&& lowmask p) ||| (i.setWidth 64 <<< (4 * p)) ||| ((v &&& ~~~lowmask p) <<< 4)

/-- The packed index with position `p` closed up (41_sorted_index.md R143). -/
def removeNibble (v : Packed) (p : Nat) : Packed :=
  (v &&& lowmask p) ||| ((v >>> 4) &&& ~~~lowmask p)

/-- `insert_sorted(i)`; its precondition is `count <= 15` (41_sorted_index.md R141, U9). -/
def insertSorted (i : Slot) (s : State) : Except Fault State :=
  if s.count.toNat < Config.kMaxTasks then
    .ok { s with
      sorted := insertNibble s.sorted (searchPosition s (s.record i).nextFireUs) i
      count := s.count + 1#5 }
  else .error .indexFull

/-- The least position below `count` that holds slot `i` (41_sorted_index.md R143, D13). -/
def findPosition (v : Packed) (count : Nat) (i : Slot) : Option Nat :=
  (List.range count).find? fun p => nib v p == i

/-- `remove_sorted(i)`: a no-op when the slot is absent (41_sorted_index.md R143). -/
def removeSorted (i : Slot) (s : State) : State :=
  match findPosition s.sorted s.count.toNat i with
  | none => s
  | some p => { s with sorted := removeNibble s.sorted p, count := s.count - 1#5 }

/-- `front_id()`; its precondition is `count >= 1` (41_sorted_index.md R146). -/
def frontId (s : State) : Except Fault Slot :=
  if s.count = 0#5 then .error .indexEmpty else .ok (nib s.sorted 0)

/-- `pop_front()`; its precondition is `count >= 1` (41_sorted_index.md R145). -/
def popFront (s : State) : Except Fault State :=
  if s.count = 0#5 then .error .indexEmpty
  else .ok { s with sorted := s.sorted >>> 4, count := s.count - 1#5 }

/-! ### Timer driver -/

/-- `configure_prescaler()`: `none` is `ConfigFault` (42_timer_driver.md R162). -/
def configurePrescaler (s : State) : Option State :=
  match prescalerOf s.platform with
  | none => none
  | some v => some { s with psc := v }

/-- `configure_timer_for_interval(us)`: the clamp, then `ARR <- us - 1` (42_timer_driver.md R163). -/
def configureTimerForInterval (us : Micros) (s : State) : State :=
  { s with arr := (if us = 0#32 then 1#32 else us) - 1#32 }

/-- `global_timer_enable()` (42_timer_driver.md R164). -/
def globalTimerEnable (s : State) : State := { s with cen := true }

/-- `global_timer_disable()` (42_timer_driver.md R165). -/
def globalTimerDisable (s : State) : State := { s with cen := false }

/-- `force_update_event()` (42_timer_driver.md R166, D18). -/
def forceUpdateEvent (s : State) : State := { s with g := s.g + s.cnt.setWidth 64, cnt := 0#32 }

/-- `acknowledge_update()` (42_timer_driver.md R167); it is the whole of interrupt entry: the
block saves no state, switches no stack and changes no mask (60_exceptions.md R249, R250). -/
def acknowledgeUpdate (s : State) : State := { s with uif := false }

/-- One count of the timer: `CNT` returns to 0 with an update event at `ARR`, else advances;
`CNT > ARR` is given no meaning (42_timer_driver.md R161, U10). -/
def countTick (s : State) : Except Fault State :=
  if s.cnt = s.arr then .ok { s with cnt := 0#32, uif := true }
  else if s.cnt < s.arr then .ok { s with cnt := s.cnt + 1#32 }
  else .error .counterPastReload

/-! ### Reload controller -/

/-- One pass of the loop of `schedule_next_interval`: the interval to the front deadline goes to
`cur` and to the reload register (44_isr_and_drain.md R213). -/
def armPass (s : State) : Except Fault State :=
  match frontId s with
  | .error f => .error f
  | .ok i =>
    let iv := intervalFor (sdiff (s.record i).nextFireUs s.g32)
    .ok (configureTimerForInterval iv { s with cur := iv })

/-- `schedule_next_interval()` (44_isr_and_drain.md R213). The loop is written as its two passes:
after the forced update event `CNT` is 0, so the second pass always exits (DEDUCED, log 12). -/
def scheduleNextInterval (s : State) : Except Fault State :=
  if s.count = 0#5 then .ok { globalTimerDisable s with cur := 0#32 }
  else
    match armPass s with
    | .error f => .error f
    | .ok s1 =>
      if s1.cnt ≤ s1.arr then .ok (globalTimerEnable s1)
      else
        match armPass (forceUpdateEvent s1) with
        | .error f => .error f
        | .ok s2 => .ok (globalTimerEnable s2)

/-! ### Registration and removal -/

/-- The record a registration stores in slot `i` (43_scheduler_api.md R183). -/
def newRecord (s : State) (period : Micros) (cb : Token) (rep : Bool) (i : Slot) : TaskRecord where
  nextFireUs := deadlineAfter s.g32 period
  callback := cb
  periodUs := period
  id := if rep then periodicHandle i else oneShotHandle s.gen i
  repeating := rep

/-- The writes of a registration after its slot is allocated: the record, and for a one-shot the
advance of the generation (43_scheduler_api.md R183, D11). -/
def storeRegistration (s : State) (period : Micros) (cb : Token) (rep : Bool) (i : Slot) : State :=
  { s.setRecord i (newRecord s period cb rep i) with
    gen := if rep then s.gen else nextGeneration s.gen }

/-- `register_common(period, cb, rep)` (43_scheduler_api.md R183): the handle returned and the
state after it; a failure returns `INVALID_ID` and the state unchanged. -/
def registerCommon (period : Micros) (cb : Token) (rep : Bool) (s : State) :
    Except Fault (Handle × State) :=
  if registrationValid period cb then
    match allocateSlot s with
    | .error f => .error f
    | .ok none => .ok (Config.invalidId, s)
    | .ok (some (i, s1)) =>
      match insertSorted i (storeRegistration s1 (clampPeriod period) cb rep i) with
      | .error f => .error f
      | .ok s2 =>
        match scheduleNextInterval s2 with
        | .error f => .error f
        | .ok s3 => .ok ((s3.record i).id, s3)
  else .ok (Config.invalidId, s)

/-- `remove_common(i)`: index, then slot, then timer (43_scheduler_api.md R185). -/
def removeCommon (i : Slot) (s : State) : Except Fault State :=
  scheduleNextInterval (releaseSlot i (removeSorted i s))

/-! ### Firing -/

/-- The loop condition of ON_TIMER_UPDATE: something is scheduled and the front deadline has
arrived (44_isr_and_drain.md R210). -/
def frontDue (s : State) : Except Fault Bool :=
  if s.count = 0#5 then .ok false
  else
    match frontId s with
    | .error f => .error f
    | .ok i => .ok (decide (sdiff (s.record i).nextFireUs s.g32 ≤ 0))

/-- One iteration: pop the front, mark it ready, re-arm it from the current tick and reinsert it
if it repeats (44_isr_and_drain.md R210). -/
def fireFront (s : State) : Except Fault State :=
  match frontId s with
  | .error f => .error f
  | .ok i =>
    match popFront s with
    | .error f => .error f
    | .ok s1 =>
      let s2 := { s1 with ready := setBit s1.ready i }
      if (s2.record i).repeating then
        insertSorted i (s2.setRecord i { s2.record i with
          nextFireUs := deadlineAfter s2.g32 (s2.record i).periodUs })
      else .ok s2

/-- The loop of ON_TIMER_UPDATE; the first argument is the number of iterations still allowed
(44_isr_and_drain.md R211: at most 16; log 10). -/
def fireLoop : Nat → State → Except Fault State
  | fuel, s =>
    match frontDue s with
    | .error f => .error f
    | .ok false => .ok s
    | .ok true =>
      match fuel with
      | 0 => .error .firingUnbounded
      | fuel + 1 =>
        match fireFront s with
        | .error f => .error f
        | .ok s1 => fireLoop fuel s1

/-- `G <- G + zext_64(cur)` (44_isr_and_drain.md R210). -/
def advanceTick (s : State) : State := { s with g := s.g + s.cur.setWidth 64 }

/-- `on_timer_update()` on any state, as the pseudocode of 44_isr_and_drain.md R210 gives it; the
stimulus ON_TIMER_UPDATE performs it only while the interrupt is enabled. -/
def onTimerUpdate (s : State) : Except Fault State :=
  match fireLoop Config.kMaxTasks (advanceTick (acknowledgeUpdate s)) with
  | .error f => .error f
  | .ok s1 => scheduleNextInterval s1

/-! ### Drain -/

/-- One drain step: with nothing ready the outstanding UPDATE is answered, else the lowest ready
slot's callback is dispatched (44_isr_and_drain.md R220, R222). -/
def drainStep (s : State) : Except Fault State :=
  match ctz s.ready with
  | none => .ok ({ s with updActive := false }.respond .ok 0#64)
  | some k =>
    match slotOfIndex k with
    | .error f => .error f
    | .ok i =>
      .ok ({ s with ready := clearBit s.ready i, updSlot := i, updActive := true }.emit
        (.dispatch (s.record i).callback i))

/-- The tail of the drain loop's body: a one-shot whose callback has returned releases its slot
(44_isr_and_drain.md R221). -/
def finishCallback (s : State) : State :=
  if (s.record s.updSlot).repeating then s else releaseSlot s.updSlot s

/-! ### Errors and answers -/

/-- `raise ConfigFault`: the latch and the fault line, the response FAULT, nothing else
(60_exceptions.md R243; 30_encoding.md R104). There is no return from it but reset. -/
def raiseConfigFault (s : State) : State := { s with faulted := true }.respond .fault 0#64

/-- The answer to a word that is no command (30_encoding.md R108). -/
def answerIllegal (s : State) : State := s.respond .illegal 0#64

/-- The answer to a command the gate does not accept (30_encoding.md R110). -/
def answerRefused (s : State) : State := s.respond .refused 0#64

/-- A micro-operation's result as the outcome of a step. -/
def outcome : Except Fault State → Host.Outcome State Fault Refusal
  | .ok s => .next s
  | .error f => .fault f

/-- A host command: its body if the gate accepts it, else the answer REFUSED
(30_encoding.md R110). -/
def hostCommand (c : CommandClass) (body : State → Except Fault State) (s : State) :
    Host.Outcome State Fault Refusal :=
  if s.gateAccepts c then outcome (body s) else .next (answerRefused s)

/-- An environment event: its body if it is enabled; a trace that contains one that is not is
refused (20_memory.md R85; 30_encoding.md R110; D32). -/
def environmentEvent (enabled : Bool) (r : Refusal) (body : State → Except Fault State)
    (s : State) : Host.Outcome State Fault Refusal :=
  if enabled then outcome (body s) else .refused r

end Sys2Proof.Machine
end

