-- ==== Sys2Proof/Machine/Drain.lean ====
section
/-! DEFINITION. The divisible drain operation: UPDATE and CB_RETURN
(44_isr_and_drain.md R220 to R223). -/

namespace Sys2Proof.Machine

/-- UPDATE: the first drain step (44_isr_and_drain.md R220). -/
def execUpdate (s : State) : Host.Outcome State Fault Refusal := hostCommand .update drainStep s

/-- CB_RETURN: the tail of the callback's turn, then the next drain step
(44_isr_and_drain.md R221). -/
def execCbReturn (s : State) : Host.Outcome State Fault Refusal :=
  environmentEvent s.callbackReturnEnabled .callbackReturnNotEnabled
    (fun s => drainStep (finishCallback s)) s

end Sys2Proof.Machine
end

