-- ==== Sys2Proof/Machine/HostCommands.lean ====
section
/-! DEFINITION. The six host commands that are complete in one step (43_scheduler_api.md R180 to
R187), each behind the command gate (30_encoding.md R110). -/

namespace Sys2Proof.Machine

/-- The body of START (43_scheduler_api.md R180). -/
def startBody (s : State) : Except Fault State :=
  match configurePrescaler s with
  | none => .ok (raiseConfigFault s)
  | some s1 =>
    match scheduleNextInterval { s1 with cnt := 0#32, uif := false, uie := true, started := true } with
    | .error f => .error f
    | .ok s2 => .ok (s2.respond .ok 0#64)

/-- A registration and its response `zext_64(id)` (43_scheduler_api.md R181, R182;
30_encoding.md R105). -/
def registrationBody (period : Micros) (cb : Token) (rep : Bool) (s : State) : Except Fault State :=
  match registerCommon period cb rep s with
  | .error f => .error f
  | .ok (id, s1) => .ok (s1.respond .ok (id.setWidth 64))

/-- A removal of slot `i` that answers `true`, or, where its checks fail, `false` with nothing
changed (43_scheduler_api.md R184, R186; 60_exceptions.md R242). -/
def removalBody (checks : Bool) (i : Slot) (s : State) : Except Fault State :=
  if checks then
    match removeCommon i s with
    | .error f => .error f
    | .ok s1 => .ok (s1.respond .ok 1#64)
  else .ok (s.respond .ok 0#64)

/-- The checks of UNREGISTER_TASK: a periodic id, an occupied slot; no kind test
(43_scheduler_api.md R184, D24). -/
def unregisterChecks (id : Handle) (s : State) : Bool :=
  isPeriodicId id && !s.isFree (handleSlot id)

/-- The checks of CANCEL_TIMEOUT: occupied, not repeating, the stored handle equal in all 16 bits
(43_scheduler_api.md R186). -/
def cancelChecks (id : Handle) (s : State) : Bool :=
  !s.isFree (handleSlot id) && !(s.record (handleSlot id)).repeating
    && (s.record (handleSlot id)).id == id

/-- START (43_scheduler_api.md R180). -/
def execStart (s : State) : Host.Outcome State Fault Refusal := hostCommand .start startBody s

/-- REGISTER_TASK (43_scheduler_api.md R181). -/
def execRegisterTask (periodUs : Micros) (cb : Token) (s : State) :
    Host.Outcome State Fault Refusal :=
  hostCommand .callable (registrationBody periodUs cb true) s

/-- SET_TIMEOUT (43_scheduler_api.md R182). -/
def execSetTimeout (delayUs : Micros) (cb : Token) (s : State) :
    Host.Outcome State Fault Refusal :=
  hostCommand .callable (registrationBody delayUs cb false) s

/-- UNREGISTER_TASK (43_scheduler_api.md R184). -/
def execUnregisterTask (id : Handle) (s : State) : Host.Outcome State Fault Refusal :=
  hostCommand .callable (fun s => removalBody (unregisterChecks id s) (handleSlot id) s) s

/-- CANCEL_TIMEOUT (43_scheduler_api.md R186). -/
def execCancelTimeout (id : Handle) (s : State) : Host.Outcome State Fault Refusal :=
  hostCommand .callable (fun s => removalBody (cancelChecks id s) (handleSlot id) s) s

/-- GET_GLOBAL_TICK (43_scheduler_api.md R187). -/
def execGetGlobalTick (s : State) : Host.Outcome State Fault Refusal :=
  hostCommand .callable (fun s => .ok (s.respond .ok s.g)) s

end Sys2Proof.Machine
end

