-- ==== Sys2Proof/Machine/TimerEvents.lean ====
section
/-! DEFINITION. The two environment events of the timer: TICK (42_timer_driver.md R161) and the
interrupt operation ON_TIMER_UPDATE (44_isr_and_drain.md R210; 60_exceptions.md R247). -/

namespace Sys2Proof.Machine

/-- TICK (42_timer_driver.md R161). -/
def execTick (s : State) : Host.Outcome State Fault Refusal :=
  environmentEvent s.tickEnabled .tickNotEnabled countTick s

/-- ON_TIMER_UPDATE (44_isr_and_drain.md R210). -/
def execOnTimerUpdate (s : State) : Host.Outcome State Fault Refusal :=
  environmentEvent s.interruptEnabled .interruptNotEnabled onTimerUpdate s

end Sys2Proof.Machine
end

