-- ==== Sys2Proof/Machine/Dispatch.lean ====
section
/-! DEFINITION. What each stimulus does (30_encoding.md R102): one arm per constructor. -/

namespace Sys2Proof.Machine

def exec (i : Instr) (s : State) : Host.Outcome State Fault Refusal :=
  match i with
  | .start => Sys2Proof.Machine.execStart s
  | .registerTask periodUs cb => Sys2Proof.Machine.execRegisterTask periodUs cb s
  | .setTimeout delayUs cb => Sys2Proof.Machine.execSetTimeout delayUs cb s
  | .unregisterTask id => Sys2Proof.Machine.execUnregisterTask id s
  | .cancelTimeout id => Sys2Proof.Machine.execCancelTimeout id s
  | .update => Sys2Proof.Machine.execUpdate s
  | .getGlobalTick => Sys2Proof.Machine.execGetGlobalTick s
  | .onTimerUpdate => Sys2Proof.Machine.execOnTimerUpdate s
  | .cbReturn => Sys2Proof.Machine.execCbReturn s
  | .tick => Sys2Proof.Machine.execTick s

end Sys2Proof.Machine
end

