-- ==== Sys2Proof/Decode.lean ====
section
/-! DEFINITION. Decoding and encoding (30_encoding.md R101 to R105, R108, R109): the fields of a
stimulus word, the decoder, the encoder, the rows of the opcode map as masks and patterns, the
response word, and the entry `decodeTableWord` through which the host reads the decoder. -/

namespace Sys2Proof

/-- The field `op`, bits 67:64 (R101). -/
def opField (w : StimulusWord) : BitVec 4 := w.extractLsb' 64 4

/-- The field `a`, bits 63:32 (R101). -/
def aField (w : StimulusWord) : BitVec 32 := w.extractLsb' 32 32

/-- The field `b`, bits 31:0 (R101). -/
def bField (w : StimulusWord) : BitVec 32 := w.extractLsb' 0 32

/-- The handle operand, `a[15:0]` (R101, R103). -/
def handleField (w : StimulusWord) : Handle := (aField w).extractLsb' 0 16

/-- Why a word stands for no stimulus (R108). -/
inductive DecodeError where
  /-- `op` is 0x7 or 0xB to 0xF. -/
  | reservedOpcode (op : BitVec 4)
  /-- A field the operation does not use is not zero. -/
  | unusedFieldNonzero (op : BitVec 4)
  deriving DecidableEq, Repr

/-- The decoding of an operation that uses neither `a` nor `b` (R102, R108). -/
def decodePlain (i : Instr) (w : StimulusWord) : Except DecodeError Instr :=
  if aField w = 0#32 ∧ bField w = 0#32 then .ok i else .error (.unusedFieldNonzero (opField w))

/-- The decoding of an operation whose one operand is a handle in `a[15:0]`: `a[31:16]` and `b`
are unused (R102, R108). -/
def decodeHandle (f : Handle → Instr) (w : StimulusWord) : Except DecodeError Instr :=
  if (aField w).extractLsb' 16 16 = 0#16 ∧ bField w = 0#32 then .ok (f (handleField w))
  else .error (.unusedFieldNonzero (opField w))

/-- The decoder (R102): read `op`, look it up, check that the unused fields are zero, hand over
the operands as they stand (R103). Total: every other word is rejected by name (R108). -/
def decode (w : StimulusWord) : Except DecodeError Instr :=
  match (opField w).toNat with
  | 0x0 => decodePlain .start w
  | 0x1 => .ok (.registerTask (aField w) (bField w))
  | 0x2 => .ok (.setTimeout (aField w) (bField w))
  | 0x3 => decodeHandle .unregisterTask w
  | 0x4 => decodeHandle .cancelTimeout w
  | 0x5 => decodePlain .update w
  | 0x6 => decodePlain .getGlobalTick w
  | 0x8 => decodePlain .onTimerUpdate w
  | 0x9 => decodePlain .cbReturn w
  | 0xA => decodePlain .tick w
  | _ => .error (.reservedOpcode (opField w))

/-- A word laid out from its three fields (R101). -/
def packWord (op : BitVec 4) (a b : BitVec 32) : StimulusWord := op ++ a ++ b

/-- The encoder: the word of a stimulus (R102). -/
def encode : Instr → StimulusWord
  | .start => packWord 0x0#4 0#32 0#32
  | .registerTask periodUs cb => packWord 0x1#4 periodUs cb
  | .setTimeout delayUs cb => packWord 0x2#4 delayUs cb
  | .unregisterTask id => packWord 0x3#4 (id.setWidth 32) 0#32
  | .cancelTimeout id => packWord 0x4#4 (id.setWidth 32) 0#32
  | .update => packWord 0x5#4 0#32 0#32
  | .getGlobalTick => packWord 0x6#4 0#32 0#32
  | .onTimerUpdate => packWord 0x8#4 0#32 0#32
  | .cbReturn => packWord 0x9#4 0#32 0#32
  | .tick => packWord 0xA#4 0#32 0#32

/-- The stimulus that stands for an operation: its word, from the side its kind says. -/
def stimulusOf (i : Instr) : Stimulus := ⟨i.source, encode i⟩

/-- One row of the opcode map as spec/opcode_table.json gives it: a word belongs to the row when
its bits under `mask` are those of `pattern`. -/
structure OpcodeRow where
  /-- The row's mnemonic. -/
  mnemonic : String
  /-- The bits that must match. -/
  pattern : StimulusWord
  /-- Which bits must match. -/
  mask : StimulusWord
  deriving DecidableEq, Repr

/-- The word belongs to the row. -/
def OpcodeRow.covers (r : OpcodeRow) (w : StimulusWord) : Bool := w &&& r.mask == r.pattern

/-- The ten rows of the opcode map, in the table's order. -/
def opcodeRows : List OpcodeRow :=
  [ ⟨"START", 0x00000000000000000#68, 0xFFFFFFFFFFFFFFFFF#68⟩,
    ⟨"REGISTER_TASK", 0x10000000000000000#68, 0xF0000000000000000#68⟩,
    ⟨"SET_TIMEOUT", 0x20000000000000000#68, 0xF0000000000000000#68⟩,
    ⟨"UNREGISTER_TASK", 0x30000000000000000#68, 0xFFFFF0000FFFFFFFF#68⟩,
    ⟨"CANCEL_TIMEOUT", 0x40000000000000000#68, 0xFFFFF0000FFFFFFFF#68⟩,
    ⟨"UPDATE", 0x50000000000000000#68, 0xFFFFFFFFFFFFFFFFF#68⟩,
    ⟨"GET_GLOBAL_TICK", 0x60000000000000000#68, 0xFFFFFFFFFFFFFFFFF#68⟩,
    ⟨"ON_TIMER_UPDATE", 0x80000000000000000#68, 0xFFFFFFFFFFFFFFFFF#68⟩,
    ⟨"CB_RETURN", 0x90000000000000000#68, 0xFFFFFFFFFFFFFFFFF#68⟩,
    ⟨"TICK", 0xA0000000000000000#68, 0xFFFFFFFFFFFFFFFFF#68⟩ ]

/-- The mnemonic of a stimulus (30_encoding.md R102). -/
def Instr.mnemonic : Instr → String
  | .start => "START"
  | .registerTask _ _ => "REGISTER_TASK"
  | .setTimeout _ _ => "SET_TIMEOUT"
  | .unregisterTask _ => "UNREGISTER_TASK"
  | .cancelTimeout _ => "CANCEL_TIMEOUT"
  | .update => "UPDATE"
  | .getGlobalTick => "GET_GLOBAL_TICK"
  | .onTimerUpdate => "ON_TIMER_UPDATE"
  | .cbReturn => "CB_RETURN"
  | .tick => "TICK"

/-- The status codes of a response word (R104). -/
def statusCode : Status → BitVec 2
  | .ok => 0#2
  | .illegal => 1#2
  | .refused => 2#2
  | .fault => 3#2

/-- The status a code stands for (R104). -/
def statusOfCode (c : BitVec 2) : Status :=
  match c.toNat with
  | 0 => .ok
  | 1 => .illegal
  | 2 => .refused
  | _ => .fault

/-- The response word `status[65:64] value[63:0]` (R104). -/
def encodeResponse (r : Response) : ResponseWord := statusCode r.status ++ r.value

/-- The response a word carries (R104). -/
def decodeResponse (w : ResponseWord) : Response :=
  ⟨statusOfCode (w.extractLsb' 64 2), w.extractLsb' 0 64⟩

/-- The 68-bit word the host's `nbits`-bit number stands for (bits above `nbits` are 0); `none`
when a bit above 67 is set, since no stimulus word has one (R109). -/
def tableWord (nbits w : Nat) : Option StimulusWord :=
  if w % 2 ^ nbits < 2 ^ 68 then some (BitVec.ofNat 68 (w % 2 ^ nbits)) else none

/-- The instruction the decoder reads from a word numbered as spec/opcode_table.json numbers it. -/
def decodeTableWord (nbits w : Nat) : Option Instr :=
  match tableWord nbits w with
  | none => none
  | some word =>
    match decode word with
    | .ok i => some i
    | .error _ => none

end Sys2Proof
end

