-- ==== Sys2Proof/Machine/Fetch.lean ====
section
/-! DEFINITION. How a stimulus reaches its operation: the next one of the schedule
(20_memory.md R85), read on the side it arrives from (30_encoding.md R100, R108), and the stimulus
the host's table word stands for. The block itself fetches nothing (10_state.md R26). -/

namespace Sys2Proof.Machine

/-- What reading a stimulus gives. -/
inductive Reading where
  /-- An operation to perform. -/
  | perform (i : Instr)
  /-- A word on the command port that is no host command (30_encoding.md R108). -/
  | illegalCommand
  /-- A recorded event that is none (30_encoding.md R108: malformed in a trace). -/
  | malformedEvent
  deriving DecidableEq, Repr

/-- Reading a stimulus: on the command port a host command, from the environment an environment
event; every other word is ILLEGAL or malformed (30_encoding.md R108). -/
def readStimulus (x : Stimulus) : Reading :=
  match x.source, decode x.word with
  | .commandPort, .ok i => if i.source = .commandPort then .perform i else .illegalCommand
  | .commandPort, .error _ => .illegalCommand
  | .environment, .ok i => if i.source = .environment then .perform i else .malformedEvent
  | .environment, .error _ => .malformedEvent

/-- The state without the stimulus just taken. -/
def State.tail (s : State) : State := { s with stimuli := s.stimuli.tail }

/-- The side a word is presented on: the environment's for the opcodes of the three environment
events, else the command port (30_encoding.md R102). -/
def sideOfWord (w : StimulusWord) : Source :=
  if 0x8 ≤ (opField w).toNat ∧ (opField w).toNat ≤ 0xA then .environment else .commandPort

/-- The stimulus that the host's table word stands for. -/
def tableStimulus (nbits w : Nat) : Option Stimulus :=
  match tableWord nbits w with
  | none => none
  | some word => some ⟨sideOfWord word, word⟩

end Sys2Proof.Machine
end

