-- ==== Sys2Proof/Machine/Step.lean ====
section
/-! DEFINITION. One step of the machine: the next stimulus of the schedule is taken and performed
(20_memory.md R84, R85), and the entry through which the host presents a word. -/

namespace Sys2Proof.Machine

/-- One step. With no stimulus nothing happens (log 4); a word that is no host command on the
command port is answered ILLEGAL, before the gate (30_encoding.md R108; 60_exceptions.md R248). -/
def step (s : State) : Host.Outcome State Fault Refusal :=
  match s.stimuli with
  | [] => .next s
  | x :: _ =>
    match readStimulus x with
    | .perform i => exec i s.tail
    | .illegalCommand => .next (answerIllegal s.tail)
    | .malformedEvent => .refused .malformedEvent

/-- The state in which the given word is the next stimulus, ahead of those already waiting. A
number that is no 68-bit word leaves the state as it is. -/
def State.withFetchWord (s : State) (nbits w : Nat) : State :=
  match tableStimulus nbits w with
  | none => s
  | some x => { s with stimuli := x :: s.stimuli }

end Sys2Proof.Machine
end

