-- ==== Sys2Proof/Machine/Script.lean ====
section
/-! DEFINITION. Test scripts (30_encoding.md R111, R112; D31): the syntax of a line, the
pseudo-stimuli TICK n, RUN n and DRAIN with their expansions, and the run of a script. The block
knows nothing of scripts; a script is a way to write the schedule of 20_memory.md R85. -/

namespace Sys2Proof.Machine

/-- A lexical element of a script line (R111). -/
inductive ScriptToken where
  /-- A mnemonic, an alias or the word `cb`. -/
  | word (w : String)
  /-- A decimal or hexadecimal number. -/
  | number (n : Nat)
  /-- `,` between two operands. -/
  | comma
  /-- `=>` before an expected response value. -/
  | arrow
  /-- `!` at the start of a callback declaration. -/
  | bang
  /-- `:` after the token of a callback declaration. -/
  | colon
  /-- `;`, a comment, or the separator inside a callback declaration. -/
  | semicolon
  /-- Anything else. -/
  | unknown
  deriving DecidableEq, Repr

/-- A line of a script (R111, R112). -/
inductive ScriptLine where
  /-- Nothing but a comment. -/
  | blank
  /-- One stimulus, with the expected response value if one is written. -/
  | stimulus (i : Instr) (expected : Option (BitVec 64))
  /-- `TICK n`. -/
  | ticks (n : Nat)
  /-- `RUN n`. -/
  | run (n : Nat)
  /-- `DRAIN`. -/
  | drain
  /-- `! cb token: commands`, the body of a callback. -/
  | callback (token : Token) (body : List Instr)
  deriving DecidableEq, Repr

/-! ### Lexing -/

/-- The value of a digit, hexadecimal digits included. -/
def digitValue (c : Char) : Option Nat :=
  if '0' ≤ c ∧ c ≤ '9' then some (c.toNat - 48)
  else if 'A' ≤ c ∧ c ≤ 'F' then some (c.toNat - 55)
  else if 'a' ≤ c ∧ c ≤ 'f' then some (c.toNat - 87)
  else none

/-- The number written with the given base, underscores being separators (00_scope.md R8). -/
def numberValue (base : Nat) : List Char → Nat → Option Nat
  | [], acc => some acc
  | '_' :: rest, acc => numberValue base rest acc
  | c :: rest, acc =>
    match digitValue c with
    | none => none
    | some d => if d < base then numberValue base rest (acc * base + d) else none

/-- The lexical element a run of letters, digits and underscores stands for. The prefix of a
hexadecimal number is `0x` as R111 writes it, its digits of either case; mnemonics are capitals as
R102 writes them (DESIGN CHOICE, log 20). -/
def wordToken : List Char → ScriptToken
  | '0' :: 'x' :: rest =>
    match numberValue 16 rest 0 with
    | some n => if rest = [] then .unknown else .number n
    | none => .unknown
  | c :: rest =>
    if '0' ≤ c ∧ c ≤ '9' then
      match numberValue 10 (c :: rest) 0 with
      | some n => .number n
      | none => .unknown
    else .word (String.ofList (c :: rest))
  | [] => .unknown

/-- The letters collected so far, as at most one element. -/
def flushWord (w : List Char) : List ScriptToken := if w = [] then [] else [wordToken w.reverse]

/-- The elements of a line; the second argument holds the current word, last letter first. Spaces
separate and any other character outside R111's examples spoils the line (DESIGN CHOICE, log 20). -/
def lexLine : List Char → List Char → List ScriptToken
  | [], w => flushWord w
  | '=' :: '>' :: rest, w => flushWord w ++ .arrow :: lexLine rest []
  | ' ' :: rest, w => flushWord w ++ lexLine rest []
  | ',' :: rest, w => flushWord w ++ .comma :: lexLine rest []
  | '!' :: rest, w => flushWord w ++ .bang :: lexLine rest []
  | ':' :: rest, w => flushWord w ++ .colon :: lexLine rest []
  | ';' :: rest, w => flushWord w ++ .semicolon :: lexLine rest []
  | c :: rest, w =>
    if c.isAlphanum ∨ c = '_' then lexLine rest (c :: w)
    else flushWord w ++ .unknown :: lexLine rest []

/-! ### Parsing -/

/-- A number as an operand of `n` bits. One that is too large for its field makes its line no line of
a script, and not an ILLEGAL word (DESIGN CHOICE, log 20: R111 does not say which). -/
def operandOf (n v : Nat) : Option (BitVec n) := if v < 2 ^ n then some (BitVec.ofNat n v) else none

/-- A mnemonic or alias with its operands, and what follows them (R111). -/
def parseStimulus : List ScriptToken → Option (Instr × List ScriptToken)
  | .word "START" :: r => some (.start, r)
  | .word "REGISTER_TASK" :: .number p :: .comma :: .number c :: r =>
    (operandOf 32 p).bind fun p => (operandOf 32 c).map fun c => (.registerTask p c, r)
  | .word "SET_TIMEOUT" :: .number p :: .comma :: .number c :: r =>
    (operandOf 32 p).bind fun p => (operandOf 32 c).map fun c => (.setTimeout p c, r)
  | .word "UNREGISTER_TASK" :: .number n :: r =>
    (operandOf 16 n).map fun n => (.unregisterTask n, r)
  | .word "CANCEL_TIMEOUT" :: .number n :: r =>
    (operandOf 16 n).map fun n => (.cancelTimeout n, r)
  | .word "UPDATE" :: r => some (.update, r)
  | .word "GET_GLOBAL_TICK" :: r => some (.getGlobalTick, r)
  | .word "GETTICK" :: r => some (.getGlobalTick, r)
  | .word "ON_TIMER_UPDATE" :: r => some (.onTimerUpdate, r)
  | .word "IRQ" :: r => some (.onTimerUpdate, r)
  | .word "CB_RETURN" :: r => some (.cbReturn, r)
  | .word "RET" :: r => some (.cbReturn, r)
  | .word "TICK" :: r => some (.tick, r)
  | _ => none

/-- The commands of a callback body, separated by `;`; the first argument bounds their number. Any
stimulus of R102 may stand in a body and no pseudo-stimulus of R112; a command of a body carries no
`=> v`, a declaration with one being no line of a script; a `;` after the last command, or nothing
at all, is taken (DESIGN CHOICE, log 20: R111 says none of this). -/
def parseBody : Nat → List ScriptToken → Option (List Instr)
  | _, [] => some []
  | 0, _ => none
  | fuel + 1, ts =>
    match parseStimulus ts with
    | some (i, []) => some [i]
    | some (i, .semicolon :: r) => (parseBody fuel r).map (i :: ·)
    | _ => none

/-- The elements of a line before its comment. -/
def beforeComment (ts : List ScriptToken) : List ScriptToken := ts.takeWhile (· ≠ .semicolon)

/-- A line that is no callback declaration (R111, R112). A pseudo-stimulus carries no `=> v`
(DESIGN CHOICE, log 20). -/
def parsePlainLine (ts : List ScriptToken) : Option ScriptLine :=
  match ts with
  | [] => some .blank
  | [.word "TICK", .number n] => some (.ticks n)
  | [.word "RUN", .number n] => some (.run n)
  | [.word "DRAIN"] => some .drain
  | ts =>
    match parseStimulus ts with
    | some (i, []) => some (.stimulus i none)
    | some (i, [.arrow, .number v]) => (operandOf 64 v).map fun v => .stimulus i (some v)
    | _ => none

/-- A line of a script from its elements (R111). -/
def parseTokens (ts : List ScriptToken) : Option ScriptLine :=
  match ts with
  | .bang :: .word "cb" :: .number t :: .colon :: r =>
    (operandOf 32 t).bind fun t => (parseBody r.length r).map fun body => .callback t body
  | ts => parsePlainLine (beforeComment ts)

/-- A line of a script from its characters (R111). -/
def parseLine (line : List Char) : Option ScriptLine := parseTokens (lexLine line [])

/-! ### Running -/

/-- One stimulus presented ahead of those already waiting, and its step. -/
def present (i : Instr) (s : State) : Host.Outcome State Fault Refusal :=
  step { s with stimuli := stimulusOf i :: s.stimuli }

/-- One step after another, stopping where the first stops. -/
def andThen (o : Host.Outcome State Fault Refusal)
    (f : State → Host.Outcome State Fault Refusal) : Host.Outcome State Fault Refusal :=
  match o with
  | .next s => f s
  | .fault r => .fault r
  | .refused r => .refused r

/-- `TICK n` = `n` TICK words (R112). A TICK that is not enabled ends it in the refusal of
30_encoding.md R110, as it ends `RUN n`. -/
def runTicks : Nat → State → Host.Outcome State Fault Refusal
  | 0, s => .next s
  | n + 1, s => andThen (present .tick s) (runTicks n)

/-- The interrupt taken if its line is high: the `PROMPT_ISR` schedule (R112). -/
def serviceInterrupt (s : State) : Host.Outcome State Fault Refusal :=
  if s.irqLine then present .onTimerUpdate s else .next s

/-- `RUN n`: `n` times a TICK, then the interrupt if its line is high (R112). -/
def runPrompt : Nat → State → Host.Outcome State Fault Refusal
  | 0, s => .next s
  | n + 1, s => andThen (andThen (present .tick s) serviceInterrupt) (runPrompt n)

/-- The commands of a callback body, one after another. -/
def runBody : List Instr → State → Host.Outcome State Fault Refusal
  | [], s => .next s
  | i :: is, s => andThen (present i s) (runBody is)

/-- The token of the last callback dispatched. -/
def lastToken (s : State) : Option Token :=
  s.outputs.reverse.findSome? fun o =>
    match o with
    | .dispatch t _ => some t
    | .response _ => none

/-- The declared body of a callback, empty if none is declared (R112: "body (if any)"). Of two
declarations for one token the first one holds (DESIGN CHOICE, log 20: R111 does not say which). -/
def bodyOf (bodies : List (Token × List Instr)) (s : State) : List Instr :=
  match lastToken s with
  | none => []
  | some t => (bodies.lookup t).getD []

/-- The rest of a drain: for the callback in flight its body and CB_RETURN, until the UPDATE
response has come; `none` when the bound on callbacks is reached first, since a drain need not end
(70_reset_and_hazards.md R299). -/
def runDrain (bodies : List (Token × List Instr)) :
    Nat → State → Option (Host.Outcome State Fault Refusal)
  | 0, s => if s.updActive then none else some (.next s)
  | n + 1, s =>
    if s.updActive then
      match andThen (runBody (bodyOf bodies s) s) (present .cbReturn) with
      | .next s1 => runDrain bodies n s1
      | o => some o
    else some (.next s)

/-- `DRAIN`: UPDATE, then the callbacks, until the UPDATE response arrives (R112). An UPDATE that is
answered at once, with nothing ready or REFUSED while an earlier drain is under way
(30_encoding.md R110), has had its response, and the DRAIN ends. -/
def drainAll (bodies : List (Token × List Instr)) (bound : Nat) (s : State) :
    Option (Host.Outcome State Fault Refusal) :=
  match present .update s with
  | .next s1 =>
    match responseIn (outputsSince s s1) with
    | some _ => some (.next s1)
    | none => runDrain bodies bound s1
  | o => some o

/-- How a script ends. -/
inductive ScriptEnd where
  /-- The last line was performed; every expected response came. -/
  | finished (s : State)
  /-- The response written after `=>` has not come (`expectationMet`). -/
  | unexpected (s : State)
  /-- A step stopped with a fault. -/
  | fault (r : Fault)
  /-- A step stopped with a refusal. -/
  | refused (r : Refusal)
  /-- A DRAIN did not end within the bound. -/
  | unfinished
  deriving DecidableEq, Repr

/-- The bodies a script declares, in the order of its lines. They hold for the whole script, for a
DRAIN above the declaration as well (DESIGN CHOICE, log 20: R111 gives a declaration no place). -/
def declaredBodies : List ScriptLine → List (Token × List Instr)
  | [] => []
  | .callback t body :: rest => (t, body) :: declaredBodies rest
  | .blank :: rest => declaredBodies rest
  | .stimulus _ _ :: rest => declaredBodies rest
  | .ticks _ :: rest => declaredBodies rest
  | .run _ :: rest => declaredBodies rest
  | .drain :: rest => declaredBodies rest

/-- One line of a script; `none` when a DRAIN does not end within the bound. A line with a stimulus
is that one stimulus, also an UPDATE or a CB_RETURN that dispatches a callback with a declared body:
bodies are issued by DRAIN alone, and after a plain line the script writes the callback's commands
out (DESIGN CHOICE, log 20: R111 does not say whether a body is issued there). -/
def runLine (bodies : List (Token × List Instr)) (bound : Nat) (l : ScriptLine) (s : State) :
    Option (Host.Outcome State Fault Refusal) :=
  match l with
  | .blank => some (.next s)
  | .stimulus i _ => some (present i s)
  | .ticks n => some (runTicks n s)
  | .run n => some (runPrompt n s)
  | .drain => drainAll bodies bound s
  | .callback _ _ => some (.next s)

/-- The response a line expects has come, if it expects one, from the state before the line to the
state after it: `=> v` speaks of the response that the line's own step gives. Where that step gives
none (an UPDATE or a CB_RETURN that dispatches, TICK, ON_TIMER_UPDATE) an expectation is not met
(DESIGN CHOICE, log 20: R111 does not say what `=> v` means there); a CB_RETURN that ends the drain
gives the response of the UPDATE. The status is not compared, R111 naming the value only. -/
def expectationMet (l : ScriptLine) (s t : State) : Bool :=
  match l with
  | .stimulus _ (some v) => (responseIn (outputsSince s t)).map (fun r => r.value) == some v
  | .stimulus _ none => true
  | .blank => true
  | .ticks _ => true
  | .run _ => true
  | .drain => true
  | .callback _ _ => true

/-- A script from a state, with a bound on the callbacks of each DRAIN (R111, R112). It ends at the
first expectation that is not met (DESIGN CHOICE, log 20). -/
def runScript (bodies : List (Token × List Instr)) (bound : Nat) :
    List ScriptLine → State → ScriptEnd
  | [], s => .finished s
  | l :: rest, s =>
    match runLine bodies bound l s with
    | none => .unfinished
    | some (.fault r) => .fault r
    | some (.refused r) => .refused r
    | some (.next s1) =>
      if expectationMet l s s1 then runScript bodies bound rest s1 else .unexpected s1

end Sys2Proof.Machine
end

