-- ==== Sys2Proof/Machine/ClaimView.lean ====
section
/-! DEFINITION. A step as a claim about runs reads it (60_exceptions.md R243, R244; D3): "a model
should treat a REFUSED or ILLEGAL command as a refusal (the claim says nothing about such a run)",
and a configuration error as a fault outcome. The machine itself goes on: `step` gives the answer
and the state that 30_encoding.md R104, R108 and R110 give (log 6, log 7). -/

namespace Sys2Proof.Machine

/-- The outcome a claim reads from a step that emitted the given outputs and went on to `t`. -/
def claimOutcome (emitted : List Output) (t : State) : Host.Outcome State Fault Refusal :=
  match responseIn emitted with
  | none => .next t
  | some r =>
    match r.status with
    | .ok => .next t
    | .illegal => .refused .illegalCommand
    | .refused => .refused .refusedCommand
    | .fault => .fault .configurationFault

/-- A step, with a command answered ILLEGAL or REFUSED read as a refusal and a START answered FAULT
read as a fault (60_exceptions.md R243, R244; D3). -/
def claimStep (s : State) : Host.Outcome State Fault Refusal :=
  match step s with
  | .next t => claimOutcome (outputsSince s t) t
  | .fault f => .fault f
  | .refused r => .refused r

end Sys2Proof.Machine
end

