-- ==== Sys2Proof/Machine/PackedLanes.lean ====
section
/-! DEFINITION. The two word-level forms that 41_sorted_index.md gives beside its normative ones:
the zero-nibble detector of R144 (general knowledge, 93_implementation_defined.md G1) beside the
abstract search of R143, and the procedure on 32-bit halves beside the 64-bit insertion of R141.
No operation uses them; the obligations say they agree. -/

namespace Sys2Proof.Machine

/-- The flags of the zero-nibble detector: bit `4p+3` of the result is set for the lowest zero
nibble `p` of `x`, and perhaps, falsely, for higher ones (R144). -/
def zeroNibbleFlags (x : Packed) : Packed :=
  (x - 0x1111111111111111#64) &&& ~~~x &&& 0x8888888888888888#64

/-- The detector with the test against `count` that R144 requires. -/
def detectPosition (v : Packed) (count : Nat) (i : Slot) : Option Nat :=
  match ctz (zeroNibbleFlags (v ^^^ rep16 i)) with
  | none => none
  | some k => if k / 4 < count then some (k / 4) else none

/-- The low half, positions 0 to 7 (20_memory.md R75). -/
def lowHalf (v : Packed) : BitVec 32 := v.extractLsb' 0 32

/-- The high half, positions 8 to 15 (20_memory.md R75). -/
def highHalf (v : Packed) : BitVec 32 := v.extractLsb' 32 32

/-- `insert32(w, q, s)` (41_sorted_index.md R141). -/
def insertHalf (w : BitVec 32) (q : Nat) (i : Slot) : BitVec 32 :=
  (w &&& ((1#32 <<< (4 * q)) - 1#32)) ||| (i.setWidth 32 <<< (4 * q))
    ||| ((w &&& ~~~((1#32 <<< (4 * q)) - 1#32)) <<< 4)

/-- The insertion carried out on the two halves (41_sorted_index.md R141): below position 8 the
nibble at position 7 crosses into the high half. -/
def insertByHalves (v : Packed) (p : Nat) (i : Slot) : Packed :=
  if 8 ≤ p then insertHalf (highHalf v) (p - 8) i ++ lowHalf v
  else ((highHalf v <<< 4) ||| (lowHalf v >>> 28)) ++ insertHalf (lowHalf v) p i

end Sys2Proof.Machine
end

