-- ==== Sys2Proof/Safety.lean ====
section
/-! DEFINITION. The terms claims are made in: the invariants V1 to V11 of 10_state.md R44 and what
holds with them, the duties of the host (70_reset_and_hazards.md R288), the premise `PROMPT_ISR`
(00_scope.md R7), the time measure of 42_timer_driver.md R168, and the effects that several
operations share. -/

namespace Sys2Proof.Machine

/-! ### Invariants -/

/-- The invariants that every step keeps, whatever the host does: V1, V5, V8 to V10, the bound of
V11 (10_state.md R44), the ranges of stored periods (R23) and of `cur` (R32), and how the latches
and the timer's bits go together (R39, R41; 43_scheduler_api.md R180; 60_exceptions.md R247). -/
structure State.CoreInv (s : State) : Prop where
  /-- V1 for `free`. -/
  freeHigh : s.free.extractLsb' 16 16 = 0#16
  /-- V1 for `ready`. -/
  readyHigh : s.ready.extractLsb' 16 16 = 0#16
  /-- V11, `count <= 16`. -/
  countLe : s.count.toNat ≤ 16
  /-- V5, positions at or above `count` hold 0. -/
  unusedZero : ∀ p < 16, s.count.toNat ≤ p → nib s.sorted p = 0#4
  /-- R23, the stored period of a scheduled task is 1 to 2^31 - 1. -/
  periodRange : ∀ i, s.isScheduled i = true →
    1 ≤ (s.record i).periodUs.toNat ∧ (s.record i).periodUs.toNat < 2 ^ 31
  /-- R32, `cur` is at most 2^31 - 1. -/
  curRange : s.cur.toNat < 2 ^ 31
  /-- V10, the generation is odd. -/
  genOdd : s.gen.getLsbD 0 = true
  /-- V8, `CEN = 1` exactly when something is scheduled. -/
  armedCount : s.started = true → (s.cen = true ↔ s.count ≠ 0#5)
  /-- V8, `cur = 0` exactly when nothing is scheduled. -/
  idleCur : s.started = true → (s.cur = 0#32 ↔ s.count = 0#5)
  /-- V9, while the counter runs it is within a reload value of `cur - 1`. -/
  reload : s.cen = true → s.arr = s.cur - 1#32 ∧ s.cnt ≤ s.arr
  /-- Before START: nothing scheduled, nothing ready, timer and interrupt off (R46, R280). -/
  beforeStart : s.started = false →
    s.count = 0#5 ∧ s.ready = 0#32 ∧ s.cur = 0#32 ∧ s.cen = false ∧ s.uif = false ∧
      s.uie = false ∧ s.updActive = false
  /-- START enables the interrupt and nothing clears it (R39). -/
  interruptOn : s.started = true → s.uie = true
  /-- `started` and `faulted` exclude each other (R41). -/
  notFaulted : s.started = true → s.faulted = false

/-- All of V1 to V6, V8 to V11 (10_state.md R44). Kept by every step of a host that keeps
`callbackDuty`. V7, the order of deadlines, is `State.Timely.ordered`. -/
structure State.Inv (s : State) : Prop extends s.CoreInv where
  /-- V2, a free slot is never ready. -/
  freeNotReady : ∀ i, s.isFree i = true → s.isReady i = false
  /-- V3, a scheduled slot is occupied. -/
  scheduledOccupied : ∀ i, s.isScheduled i = true → s.isFree i = false
  /-- V4, no slot number appears twice. -/
  noRepeat : ∀ p q, p < q → q < s.count.toNat → nib s.sorted p ≠ nib s.sorted q
  /-- V6, an occupied periodic slot is scheduled. -/
  periodicScheduled : ∀ i, s.isFree i = false → (s.record i).repeating = true →
    s.isScheduled i = true
  /-- V6, an occupied one-shot is in exactly one of: the index, `ready`, in flight. -/
  oneShotPlace : ∀ i, s.isFree i = false → (s.record i).repeating = false →
    (s.isScheduled i).toNat + (s.isReady i).toNat + (s.isInFlight i).toNat = 1

/-- What holds while no overrun has occurred: V7, the deadlines in order (10_state.md R44); every
scheduled deadline at least one tick ahead (44_isr_and_drain.md R215); `cur` the distance to the
front deadline (R213). -/
structure State.Timely (s : State) : Prop where
  /-- V7, deadlines by position do not decrease. -/
  ordered : ∀ p q, p < q → q < s.count.toNat → sdiff (deadlineAt s p) (deadlineAt s q) ≤ 0
  /-- R215, every scheduled deadline lies ahead. -/
  future : ∀ p < s.count.toNat, 1 ≤ sdiff (deadlineAt s p) s.g32
  /-- R213, the programmed interval ends at the front deadline. -/
  curExact : s.count ≠ 0#5 → sdiff (deadlineAt s 0) s.g32 = (s.cur.toNat : Int)

/-- All scheduled deadlines and the given one lie within less than 2^31 of each other: they lie in
one window of 2^31 - 1 ticks (41_sorted_index.md R142; 70_reset_and_hazards.md R300, duty H5). -/
def State.Within (s : State) (new : Micros) : Prop :=
  ∃ base : Micros, (new - base).toNat < 2 ^ 31 ∧
    ∀ p < s.count.toNat, (deadlineAt s p - base).toNat < 2 ^ 31

/-- V7, the deadlines by position do not decrease (10_state.md R44), whether or not an overrun has
occurred. -/
def State.Ordered (s : State) : Prop :=
  ∀ p q, p < q → q < s.count.toNat → sdiff (deadlineAt s p) (deadlineAt s q) ≤ 0

/-- The tick the interrupt operation works at: `G32` after its advance by `cur`
(44_isr_and_drain.md R210). -/
def State.serviceTick (s : State) : Micros := (s.g + s.cur.setWidth 64).setWidth 32

/-- One window of less than 2^31 ticks holds all that an interrupt operation compares: the tick it
works at, every scheduled deadline, overdue or not, and the new deadline of each periodic task that
is due (70_reset_and_hazards.md R300, duty H5; 00_scope.md R9). -/
def State.ServiceWindow (s : State) : Prop :=
  ∃ base : Micros, (s.serviceTick - base).toNat < 2 ^ 31 ∧
    (∀ p < s.count.toNat, (deadlineAt s p - base).toNat < 2 ^ 31) ∧
    ∀ p < s.count.toNat, sdiff (deadlineAt s p) s.serviceTick ≤ 0 →
      (s.record (nib s.sorted p)).repeating = true →
        (deadlineAfter s.serviceTick (s.record (nib s.sorted p)).periodUs - base).toNat < 2 ^ 31

/-! ### Duties and premises -/

/-- The host's duty H4, as far as it needs to go (70_reset_and_hazards.md R288, R298; log 15): no
SET_TIMEOUT while the callback in flight belongs to a slot that has been freed. -/
def callbackDuty (s : State) : Instr → Prop
  | .setTimeout _ _ => ¬(s.updActive = true ∧ s.isFree s.updSlot = true)
  | .start => True
  | .registerTask _ _ => True
  | .unregisterTask _ => True
  | .cancelTimeout _ => True
  | .update => True
  | .getGlobalTick => True
  | .onTimerUpdate => True
  | .cbReturn => True
  | .tick => True

/-- The host's duty H5 as far as an operation needs it (70_reset_and_hazards.md R288, R300): the
deadlines that a registration or the interrupt operation compares lie in one window of 2^31. -/
def windowDuty (s : State) : Instr → Prop
  | .registerTask p _ => s.Within (deadlineAfter s.g32 (clampPeriod p))
  | .setTimeout p _ => s.Within (deadlineAfter s.g32 (clampPeriod p))
  | .onTimerUpdate => s.ServiceWindow
  | .start => True
  | .unregisterTask _ => True
  | .cancelTimeout _ => True
  | .update => True
  | .getGlobalTick => True
  | .cbReturn => True
  | .tick => True

/-- The next stimulus performs the operation `i`. -/
def State.nextIs (s : State) (i : Instr) : Prop :=
  ∃ x, s.stimuli.head? = some x ∧ readStimulus x = .perform i

/-- The host keeps its duty at the next stimulus. -/
def State.hostKeepsDuty (s : State) : Prop := ∀ i, s.nextIs i → callbackDuty s i

/-- The rows of the command gate that refuse a host command (30_encoding.md R110), written as the
table has them. -/
def gateRefuses (s : State) (i : Instr) : Prop :=
  s.faulted = true ∨
    (s.started = false ∧ i ≠ .start) ∨
    (s.started = true ∧ i = .start) ∨
    (s.started = true ∧ s.updActive = true ∧ i = .update)

/-- The clock configuration START accepts: a whole positive multiple of 1 MHz, the multiple less one
within the prescaler's range (42_timer_driver.md R162). -/
def clockValid (p : Platform) : Prop :=
  1000000 ∣ p.timerClkHz ∧ 1 ≤ p.timerClkHz / 1000000 ∧ p.timerClkHz / 1000000 - 1 ≤ p.pscMax

/-- `PROMPT_ISR` at one step: an enabled interrupt is the next step (00_scope.md R7; D5). -/
def State.promptInterrupt (s : State) : Prop := s.irqLine = true → s.nextIs .onTimerUpdate

/-! ### Time -/

/-- The quantity to watch for real time: `G + CNT`, and `G + cur + CNT` while an update event is
pending (42_timer_driver.md R168). -/
def State.realTime (s : State) : Tick :=
  s.g + s.cnt.setWidth 64 + if s.uif then s.cur.setWidth 64 else 0#64

/-- The amount by which an operation advances `G` when no overrun occurs: `cur` for the interrupt
operation, nothing for every other (10_state.md R31). -/
def programmedAdvance (s : State) : Instr → Tick
  | .onTimerUpdate => s.cur.setWidth 64
  | .start => 0#64
  | .registerTask _ _ => 0#64
  | .setTimeout _ _ => 0#64
  | .unregisterTask _ => 0#64
  | .cancelTimeout _ => 0#64
  | .update => 0#64
  | .getGlobalTick => 0#64
  | .cbReturn => 0#64
  | .tick => 0#64

/-! ### States worth naming -/

/-- Quiescent: no step but a host command is enabled (70_reset_and_hazards.md R304). -/
def State.isQuiescent (s : State) : Bool :=
  s.isIdle && s.ready == 0#32 && !s.updActive && !s.uif

/-! ### Shared effects -/

/-- The interval the reload controller computes from the front deadline
(44_isr_and_drain.md R212, R213). -/
def State.frontInterval (s : State) : Micros := intervalFor (sdiff (deadlineAt s 0) s.g32)

/-- The timer fields after `schedule_next_interval`, from the state it began in to the state it
ended in (44_isr_and_drain.md R213): Idle; or Armed without overrun; or Armed after the forced
update event. -/
def TimerReprogrammed (s t : State) : Prop :=
  if t.count = 0#5 then
    t.cen = false ∧ t.cur = 0#32 ∧ t.arr = s.arr ∧ t.cnt = s.cnt ∧ t.g = s.g
  else
    t.cen = true ∧ t.cur = t.frontInterval ∧ t.arr = t.cur - 1#32 ∧
      ((s.cnt ≤ intervalFor (sdiff (deadlineAt t 0) s.g32) - 1#32 ∧ t.cnt = s.cnt ∧ t.g = s.g) ∨
        (intervalFor (sdiff (deadlineAt t 0) s.g32) - 1#32 < s.cnt ∧ t.cnt = 0#32 ∧
          t.g = s.g + s.cnt.setWidth 64))

/-- Nothing but the index, the slot bitmaps, the records, the generation, the timer's programming
and the outputs differs: the latches, the prescaler, the interrupt bits, the platform and the
waiting stimuli are as before. -/
def SameControl (s t : State) : Prop :=
  t.psc = s.psc ∧ t.uif = s.uif ∧ t.uie = s.uie ∧ t.started = s.started ∧ t.faulted = s.faulted ∧
    t.updActive = s.updActive ∧ t.updSlot = s.updSlot ∧ t.platform = s.platform ∧
    t.stimuli = s.stimuli

/-- Slot `i` taken out of the index, released, and the timer reprogrammed; no record and no other
slot's bits change (43_scheduler_api.md R184 to R186). -/
def SlotRemoved (s t : State) (i : Slot) : Prop :=
  (s.isScheduled i = false → t.sorted = s.sorted ∧ t.count = s.count) ∧
    (∀ p < s.count.toNat, nib s.sorted p = i → (∀ q < p, nib s.sorted q ≠ i) →
      t.sorted = removeNibble s.sorted p ∧ t.count = s.count - 1#5) ∧
    t.ready = clearBit s.ready i ∧ t.free = setBit s.free i ∧ t.tasks = s.tasks ∧
    t.gen = s.gen ∧ TimerReprogrammed s t ∧ SameControl s t

/-- Slot `i` is the lowest free one (40_slot_allocator.md R130). -/
def State.lowestFree (s : State) (i : Slot) : Prop :=
  s.isFree i = true ∧ ∀ j : Slot, j.toNat < i.toNat → s.isFree j = false

/-- Slot `i` is the lowest ready one (44_isr_and_drain.md R220). -/
def State.lowestReady (s : State) (i : Slot) : Prop :=
  s.isReady i = true ∧ ∀ j : Slot, j.toNat < i.toNat → s.isReady j = false

/-- Two states that agree on everything the spec gives a value before it is read: they may differ
in the records of free slots (but the one whose callback is in flight), in `CNT` and `PSC` before
START, in `ARR` while the counter is stopped, and in `upd_slot` while no callback is in flight
(10_state.md R46; 93_implementation_defined.md U1). -/
structure SameSpecified (s t : State) : Prop where
  /-- Records of occupied slots. -/
  records : ∀ i, s.isFree i = false → s.record i = t.record i
  /-- The record and number of the slot in flight. -/
  inFlight : s.updActive = true → s.updSlot = t.updSlot ∧ s.record s.updSlot = t.record s.updSlot
  /-- `CNT` and `PSC` once START has written them. -/
  afterStart : s.started = true → s.cnt = t.cnt ∧ s.psc = t.psc
  /-- `ARR` while the counter runs. -/
  reload : s.cen = true → s.arr = t.arr
  /-- Bitmaps and index. -/
  stores : s.free = t.free ∧ s.ready = t.ready ∧ s.sorted = t.sorted ∧ s.count = t.count
  /-- Tick, interval, generation. -/
  scheduler : s.g = t.g ∧ s.cur = t.cur ∧ s.gen = t.gen
  /-- Timer bits. -/
  timer : s.cen = t.cen ∧ s.uif = t.uif ∧ s.uie = t.uie
  /-- Latches. -/
  latches : s.started = t.started ∧ s.faulted = t.faulted ∧ s.updActive = t.updActive
  /-- What is outside the block. -/
  outside : s.platform = t.platform ∧ s.stimuli = t.stimuli ∧ s.outputs = t.outputs

end Sys2Proof.Machine
end

