-- ==== Sys2Proof/WellFormed.lean ====
section
/-! DEFINITION. Which stimuli are well formed (30_encoding.md R108; host duty H1 of
70_reset_and_hazards.md R288). The operands of `Instr` are typed by their widths, so every `Instr`
is well formed; what can be ill formed is a stimulus: its opcode, its unused fields, the side it
arrives from. The three checks are written from the opcode map, not through the decoder. -/

namespace Sys2Proof

/-- The opcodes of the map: 0x0 to 0x6 and 0x8 to 0xA (R102, R108). -/
def opcodeAssigned (op : BitVec 4) : Bool := op.toNat ≤ 6 || (8 ≤ op.toNat && op.toNat ≤ 10)

/-- The fields the operation does not use are zero: `a` and `b` but for 0x1 and 0x2, which use
both, and 0x3 and 0x4, which use `a[15:0]` (R102, R108). -/
def unusedFieldsZero (w : StimulusWord) : Bool :=
  if (opField w).toNat = 1 ∨ (opField w).toNat = 2 then true
  else if (opField w).toNat = 3 ∨ (opField w).toNat = 4 then
    (aField w).toNat < 2 ^ 16 && bField w == 0#32
  else aField w == 0#32 && bField w == 0#32

/-- The side an assigned opcode arrives from: 0x0 to 0x6 the command port, 0x8 to 0xA the
environment (R102, R108). -/
def sourceOfOpcode (op : BitVec 4) : Source := if op.toNat ≤ 6 then .commandPort else .environment

/-- The stimulus is well formed: an assigned opcode, unused fields zero, on its own side. -/
def Stimulus.wellFormed (x : Stimulus) : Bool :=
  opcodeAssigned (opField x.word) && unusedFieldsZero x.word
    && x.source == sourceOfOpcode (opField x.word)

end Sys2Proof
end

