-- ==== Sys2Proof/Certificates/Slice0/Obligations.lean ====
section
/-! DEFINITION. The statements for the provers. Each says in its docstring which rule of spec/ it
formalises; what a statement calls "the model's choice" is logged under the number it names. -/

open Sys2Proof Sys2Proof.Machine

/-! ### Words -/

/-- The worked words of 43_scheduler_api.md (R180 to R186) and the event words of
30_encoding.md R102 decode to the stimuli they are given for. -/
def Obligations.SpecWordsDecode : Prop :=
  decode 0x00000000000000000#68 = .ok .start ∧
  decode 0x10000000A00000CB0#68 = .ok (.registerTask 10#32 0xCB0#32) ∧
  decode 0x2000001F400000CB1#68 = .ok (.setTimeout 500#32 0xCB1#32) ∧
  decode 0x30000000100000000#68 = .ok (.unregisterTask 1#16) ∧
  decode 0x40000001000000000#68 = .ok (.cancelTimeout 0x10#16) ∧
  decode 0x50000000000000000#68 = .ok .update ∧
  decode 0x60000000000000000#68 = .ok .getGlobalTick ∧
  decode 0x80000000000000000#68 = .ok .onTimerUpdate ∧
  decode 0x90000000000000000#68 = .ok .cbReturn ∧
  decode 0xA0000000000000000#68 = .ok .tick

/-- 30_encoding.md R101 to R103: decoding the encoding of a stimulus gives it back, for every
value of every operand. -/
def Obligations.DecodeOfEncode : Prop := ∀ i : Instr, decode (encode i) = .ok i

/-- 30_encoding.md R101, R102, R108: a word that decodes is the one encoding of what it decodes
to, so each stimulus has exactly one word. -/
def Obligations.EncodeOfDecode : Prop :=
  ∀ (w : StimulusWord) (i : Instr), decode w = .ok i → encode i = w

/-- 30_encoding.md R102, R108 against spec/opcode_table.json: the rows of the opcode map that
cover a word are exactly the one row of the stimulus it decodes to, and none when it is rejected;
so no two rows overlap and no reserved word falls into a row. -/
def Obligations.OpcodeRowsAgreeWithDecoder : Prop :=
  ∀ w : StimulusWord, (opcodeRows.filter (fun r => r.covers w)).map (fun r => r.mnemonic) =
    match decode w with
    | .ok i => [i.mnemonic]
    | .error _ => []

/-- 30_encoding.md R104: a response word holds its status code in bits 65:64 and its value in bits
63:0, and the responses and the 66-bit words correspond one to one. -/
def Obligations.ResponseWordLayout : Prop :=
  (∀ r : Response, (encodeResponse r).extractLsb' 0 64 = r.value ∧
    ((encodeResponse r).extractLsb' 64 2).toNat =
      (match r.status with
      | .ok => 0
      | .illegal => 1
      | .refused => 2
      | .fault => 3) ∧
    decodeResponse (encodeResponse r) = r) ∧
  ∀ w : ResponseWord, encodeResponse (decodeResponse w) = w

/-- 30_encoding.md R100, R108 (host duty H1): a stimulus is performed exactly when it is well formed:
an assigned opcode, unused fields zero, arriving on its own side; its word is the encoding of what
is performed; and one that is not well formed is ILLEGAL on the command port and malformed from the
environment. That a host command's opcode arriving from the environment is malformed and not
performed is the model's choice, read from R100 (log 8); R108 does not say it. -/
def Obligations.WellFormedStimuliArePerformed : Prop :=
  ∀ x : Stimulus,
    (x.wellFormed = true ↔ ∃ i, readStimulus x = .perform i) ∧
    (∀ i, readStimulus x = .perform i → encode i = x.word ∧ i.source = x.source) ∧
    (x.wellFormed = false → readStimulus x =
      match x.source with
      | .commandPort => .illegalCommand
      | .environment => .malformedEvent)

/-! ### Steps -/

/-- 20_memory.md R84, R85: the next stimulus, when its word decodes to an operation of the side it
arrives from, is performed on the state without it. -/
def Obligations.StepPerformsDecodedStimulus : Prop :=
  ∀ (s : State) (x : Stimulus) (rest : List Stimulus) (i : Instr),
    s.stimuli = x :: rest → decode x.word = .ok i → i.source = x.source →
      step s = exec i { s with stimuli := rest }

/-- The host's entry (the model's choice, log 3): the word of an operation, presented through
`withFetchWord`, is performed by the very next step, whatever waits behind it. -/
def Obligations.PresentedWordIsPerformed : Prop :=
  ∀ (s : State) (i : Instr), step (s.withFetchWord 72 (encode i).toNat) = exec i s

/-- 30_encoding.md R108 with the response of R104: what a word that is no host command does on the
command port, in every state, before the gate; and that a recorded event with a nonzero operand
field or a reserved opcode is malformed and refused. That the answer ILLEGAL is a next state and no
refusal is the model's choice against the advice of 60_exceptions.md R244 (log 6);
`ClaimsExcludeAnswersThatAreNotOk` has the other reading. -/
def Obligations.IllegalAndMalformedWords : Prop :=
  ∀ (s : State) (w : StimulusWord) (rest : List Stimulus),
    (s.stimuli = ⟨.commandPort, w⟩ :: rest →
      ((opField w).toNat = 7 ∨ 8 ≤ (opField w).toNat ∨
        ((opField w).toNat ∈ [0, 5, 6] ∧ (aField w ≠ 0#32 ∨ bField w ≠ 0#32)) ∨
        ((opField w).toNat ∈ [3, 4] ∧ (2 ^ 16 ≤ (aField w).toNat ∨ bField w ≠ 0#32))) →
      step s = .next { s with
        stimuli := rest, outputs := s.outputs ++ [.response ⟨.illegal, 0#64⟩] }) ∧
    (s.stimuli = ⟨.environment, w⟩ :: rest →
      ((opField w).toNat = 7 ∨ 11 ≤ (opField w).toNat ∨
        ((opField w).toNat ∈ [8, 9, 10] ∧ (aField w ≠ 0#32 ∨ bField w ≠ 0#32))) →
      step s = .refused .malformedEvent)

/-- 30_encoding.md R110 with the response of R104: the command gate. A command the table refuses is
answered REFUSED and changes nothing else; a command the table accepts is not answered REFUSED; an
event that is not enabled is refused by the model. That the answer REFUSED is a next state and no
refusal is the model's choice against the advice of 60_exceptions.md R244 (log 6);
`ClaimsExcludeAnswersThatAreNotOk` has the other reading. -/
def Obligations.GateAndEnabling : Prop :=
  (∀ (s : State) (i : Instr), i.source = .commandPort → gateRefuses s i →
    exec i s = .next { s with outputs := s.outputs ++ [.response ⟨.refused, 0#64⟩] }) ∧
  (∀ (s t : State) (i : Instr), i.source = .commandPort → ¬ gateRefuses s i →
    exec i s = .next t → t.outputs ≠ s.outputs ++ [.response ⟨.refused, 0#64⟩]) ∧
  (∀ s : State, ¬(s.started = true ∧ s.faulted = false ∧ s.cen = true) →
    exec .tick s = .refused .tickNotEnabled) ∧
  (∀ s : State, ¬(s.uif = true ∧ s.uie = true) →
    exec .onTimerUpdate s = .refused .interruptNotEnabled) ∧
  (∀ s : State, s.updActive = false → exec .cbReturn s = .refused .callbackReturnNotEnabled)

/-- 70_reset_and_hazards.md R280 and 60_exceptions.md R243: before START only START changes the
block, and after a configuration fault nothing does; a step takes its stimulus, perhaps answers it,
and leaves every element of the block's state as it was (that the answers are next states is the
model's choice, log 6). -/
def Obligations.InertBeforeStartAndAfterFault : Prop :=
  ∀ s t : State, s.CoreInv →
    (s.faulted = true ∨ (s.started = false ∧ ¬ s.nextIs .start)) → step s = .next t →
      t = { s with stimuli := s.stimuli.tail, outputs := t.outputs } ∧
        (t.outputs = s.outputs ∨
          t.outputs = s.outputs ++ [.response ⟨.refused, 0#64⟩] ∨
          t.outputs = s.outputs ++ [.response ⟨.illegal, 0#64⟩])

/-- 60_exceptions.md R243, R244 and D3 (the reading for claims, log 6 and log 7): `claimStep` refuses
exactly the command-port words that are no host command and the host commands the gate refuses,
faults at a START with an invalid clock configuration, and is the step of the machine for every
other host command, for every stimulus from the environment and with no stimulus. -/
def Obligations.ClaimsExcludeAnswersThatAreNotOk : Prop :=
  (∀ (s : State) (x : Stimulus) (rest : List Stimulus),
    s.stimuli = x :: rest → x.source = .commandPort →
      ((∀ i, decode x.word = .ok i → i.source ≠ .commandPort) →
        claimStep s = .refused .illegalCommand) ∧
      ∀ i, decode x.word = .ok i → i.source = .commandPort →
        (gateRefuses s i → claimStep s = .refused .refusedCommand) ∧
        (¬ gateRefuses s i → i = .start → ¬ clockValid s.platform →
          claimStep s = .fault .configurationFault) ∧
        (¬ gateRefuses s i → (i = .start → clockValid s.platform) → claimStep s = step s)) ∧
  ∀ s : State, (∀ x ∈ s.stimuli.head?, x.source = .environment) → claimStep s = step s

/-! ### START -/

/-- 43_scheduler_api.md R180 with the prescaler of 42_timer_driver.md R162: START with a valid
clock configuration, and START with an invalid one, each with the whole state it leaves. Before
START nothing is scheduled (`CoreInv.beforeStart`). That `ConfigFault` is a next state with
`faulted` set and the answer FAULT is the model's choice, read from R180 and 30_encoding.md R104
against the advice of 60_exceptions.md R243 (log 7). -/
def Obligations.StartInitialisesOrFaults : Prop :=
  ∀ s : State, s.started = false → s.faulted = false → s.count = 0#5 →
    (1000000 ∣ s.platform.timerClkHz → 1 ≤ s.platform.timerClkHz / 1000000 →
      s.platform.timerClkHz / 1000000 - 1 ≤ s.platform.pscMax →
      exec .start s = .next { s with
        psc := s.platform.timerClkHz / 1000000 - 1, cnt := 0#32, uif := false, uie := true,
        started := true, cen := false, cur := 0#32,
        outputs := s.outputs ++ [.response ⟨.ok, 0#64⟩] }) ∧
    (¬(1000000 ∣ s.platform.timerClkHz ∧ 1 ≤ s.platform.timerClkHz / 1000000 ∧
        s.platform.timerClkHz / 1000000 - 1 ≤ s.platform.pscMax) →
      exec .start s = .next { s with
        faulted := true, outputs := s.outputs ++ [.response ⟨.fault, 0#64⟩] })

/-! ### Registration -/

/-- 43_scheduler_api.md R183 (REGISTER_TASK R181, SET_TIMEOUT R182): a registration that is
accepted completes, with the record it stores, the slot it takes (the lowest free one, R130), the
index it leaves (R141), the generation (advanced by a one-shot only), the timer (R213), the response
and the frame. `rep` chooses REGISTER_TASK or SET_TIMEOUT. -/
def Obligations.RegistrationCompletes : Prop :=
  ∀ (s : State) (rep : Bool) (p : Micros) (cb : Token) (i : Slot),
    s.started = true → s.faulted = false → cb ≠ 0#32 → p.toNat < 2 ^ 31 →
    s.count.toNat < 16 → s.lowestFree i →
    ∃ t, exec (if rep then .registerTask p cb else .setTimeout p cb) s = .next t ∧
      t.record i =
        { nextFireUs := s.g32 + (if p = 0#32 then 1#32 else p)
          callback := cb
          periodUs := if p = 0#32 then 1#32 else p
          id := if rep then i.setWidth 16 else s.gen ++ i
          repeating := rep } ∧
      (∀ j, j ≠ i → t.record j = s.record j) ∧
      t.free = clearBit s.free i ∧ t.ready = s.ready ∧
      t.gen = (if rep then s.gen else s.gen + 2#12) ∧
      t.count = s.count + 1#5 ∧
      t.sorted = insertNibble s.sorted
        (searchPosition (s.setRecord i (t.record i)) (t.record i).nextFireUs) i ∧
      TimerReprogrammed s t ∧ SameControl s t ∧
      t.outputs = s.outputs ++ [.response ⟨.ok, (t.record i).id.setWidth 64⟩]

/-- 60_exceptions.md R241: a registration with a null callback, with a period at or above 2^31
(the clamp makes only 0 into 1), or with every slot occupied returns `INVALID_ID` and changes
nothing, the generation included. -/
def Obligations.RegistrationFailureChangesNothing : Prop :=
  ∀ (s : State) (rep : Bool) (p : Micros) (cb : Token),
    s.started = true → s.faulted = false →
    (cb = 0#32 ∨ 2 ^ 31 ≤ p.toNat ∨ s.free = 0#32) →
    exec (if rep then .registerTask p cb else .setTimeout p cb) s =
      .next { s with outputs := s.outputs ++ [.response ⟨.ok, 0xFF#64⟩] }

/-! ### Cancellation -/

/-- 43_scheduler_api.md R184: the word of UNREGISTER_TASK; on an occupied slot below 16, whatever
its kind, it removes the task and answers 1; on an id of 16 or more, or a free slot, it answers 0
and changes nothing. -/
def Obligations.UnregisterTaskEffect : Prop :=
  (∀ id : Handle, decode (packWord 3#4 (id.setWidth 32) 0#32) = .ok (.unregisterTask id)) ∧
  ∀ (s : State) (id : Handle), s.started = true → s.faulted = false →
    (id.toNat < 16 → s.isFree (id.extractLsb' 0 4) = false →
      ∃ t, exec (.unregisterTask id) s = .next t ∧ SlotRemoved s t (id.extractLsb' 0 4) ∧
        t.outputs = s.outputs ++ [.response ⟨.ok, 1#64⟩]) ∧
    (16 ≤ id.toNat ∨ s.isFree (id.extractLsb' 0 4) = true →
      exec (.unregisterTask id) s =
        .next { s with outputs := s.outputs ++ [.response ⟨.ok, 0#64⟩] })

/-- 43_scheduler_api.md R186: the word of CANCEL_TIMEOUT; on an occupied slot that holds a one-shot
with exactly this handle it removes the task and answers 1; on a free slot, a periodic task or
another handle it answers 0 and changes nothing. -/
def Obligations.CancelTimeoutEffect : Prop :=
  (∀ id : Handle, decode (packWord 4#4 (id.setWidth 32) 0#32) = .ok (.cancelTimeout id)) ∧
  ∀ (s : State) (id : Handle), s.started = true → s.faulted = false →
    (s.isFree (id.extractLsb' 0 4) = false → (s.record (id.extractLsb' 0 4)).repeating = false →
      (s.record (id.extractLsb' 0 4)).id = id →
      ∃ t, exec (.cancelTimeout id) s = .next t ∧ SlotRemoved s t (id.extractLsb' 0 4) ∧
        t.outputs = s.outputs ++ [.response ⟨.ok, 1#64⟩]) ∧
    (s.isFree (id.extractLsb' 0 4) = true ∨ (s.record (id.extractLsb' 0 4)).repeating = true ∨
        (s.record (id.extractLsb' 0 4)).id ≠ id →
      exec (.cancelTimeout id) s =
        .next { s with outputs := s.outputs ++ [.response ⟨.ok, 0#64⟩] })

/-- 43_scheduler_api.md R185, "Cancellation is synchronous": once UNREGISTER_TASK or
CANCEL_TIMEOUT has answered true, the slot is free and in neither the index nor `ready`. -/
def Obligations.CancellationIsFinal : Prop :=
  ∀ (s t : State) (id : Handle) (i : Instr), s.Inv →
    i = .unregisterTask id ∨ i = .cancelTimeout id →
    exec i s = .next t → t.outputs = s.outputs ++ [.response ⟨.ok, 1#64⟩] →
      t.isFree (id.extractLsb' 0 4) = true ∧ t.isScheduled (id.extractLsb' 0 4) = false ∧
        t.isReady (id.extractLsb' 0 4) = false

/-! ### Reading the tick -/

/-- 43_scheduler_api.md R187: the word of GET_GLOBAL_TICK; it answers `G` and changes nothing. -/
def Obligations.GetGlobalTickAnswersTick : Prop :=
  decode (packWord 6#4 0#32 0#32) = .ok .getGlobalTick ∧
  ∀ s : State, s.started = true → s.faulted = false →
    exec .getGlobalTick s = .next { s with outputs := s.outputs ++ [.response ⟨.ok, s.g⟩] }

/-- 10_state.md R31, "never decreased" (and 43_scheduler_api.md R187, monotonically
non-decreasing): no operation lowers `G`, and none advances it by more than `cur + CNT`, short of
the 64-bit wrap. -/
def Obligations.TickNeverDecreases : Prop :=
  ∀ (s t : State) (i : Instr), exec i s = .next t →
    s.g.toNat + s.cur.toNat + s.cnt.toNat < 2 ^ 64 →
      s.g.toNat ≤ t.g.toNat ∧ t.g.toNat ≤ s.g.toNat + s.cur.toNat + s.cnt.toNat

/-! ### The timer -/

/-- 42_timer_driver.md R161: the word of TICK; no step while it is not enabled; while the counter
runs, an update event and a return to 0 at the reload value, a pending flag staying set, else one
more count; and no meaning (a fault of the model) above the reload value. -/
def Obligations.TickCountsToReload : Prop :=
  decode (packWord 0xA#4 0#32 0#32) = .ok .tick ∧
  (∀ s : State, s.started = false ∨ s.faulted = true ∨ s.cen = false →
    exec .tick s = .refused .tickNotEnabled) ∧
  ∀ s : State, s.started = true → s.faulted = false → s.cen = true →
    (s.cnt = s.arr → exec .tick s = .next { s with cnt := 0#32, uif := true }) ∧
    (s.cnt < s.arr → exec .tick s = .next { s with cnt := s.cnt + 1#32 }) ∧
    (s.arr < s.cnt → exec .tick s = .fault .counterPastReload)

/-- 44_isr_and_drain.md R212: `interval_for` on every signed 32-bit distance. -/
def Obligations.IntervalForDistance : Prop :=
  ∀ d : Int, -(2 ^ 31) ≤ d → d < 2 ^ 31 →
    (d ≤ 1 → intervalFor d = 1#32) ∧ (1 < d → ((intervalFor d).toNat : Int) = d)

/-- 44_isr_and_drain.md R210: the interrupt operation, when enabled, completes in every state with
the core invariants; the flag is acknowledged, `G` advances by `cur`, the timer is reprogrammed
(R213), no front deadline that has arrived is left, and what it may write is bounded: `ready` bits
and new deadlines of scheduled tasks only, and a task that left the index or was re-armed is
ready. -/
def Obligations.InterruptOperationCompletes : Prop :=
  ∀ s : State, s.CoreInv → s.uif = true → s.uie = true →
    ∃ t, exec .onTimerUpdate s = .next t ∧
      TimerReprogrammed { s with g := s.g + s.cur.setWidth 64 } t ∧
      SameControl { s with uif := false } t ∧
      t.free = s.free ∧ t.gen = s.gen ∧ t.outputs = s.outputs ∧
      (t.count ≠ 0#5 → 1 ≤ sdiff (deadlineAt t 0) ((s.g + s.cur.setWidth 64).setWidth 32)) ∧
      (∀ i, s.isReady i = true → t.isReady i = true) ∧
      (∀ i, t.isReady i = true → s.isReady i = true ∨ s.isScheduled i = true) ∧
      (∀ i, t.isScheduled i = true → s.isScheduled i = true) ∧
      (∀ i, s.isScheduled i = true → t.isScheduled i = false → t.isReady i = true) ∧
      ∀ i, t.record i = s.record i ∨
        (t.isReady i = true ∧ s.isScheduled i = true ∧ (s.record i).repeating = true ∧
          t.record i = { s.record i with
            nextFireUs := (s.g + s.cur.setWidth 64).setWidth 32 + (s.record i).periodUs })

/-- 44_isr_and_drain.md R210, R211, overdue deadlines included (R302): in an index in order whose
deadlines lie in one window of 2^31 with the tick and the new deadlines (R300), exactly the
scheduled tasks whose deadline has arrived or passed are marked ready, each once; the periodic ones
are re-armed from the current tick and stay scheduled; the one-shots leave the index; nothing else
changes place. -/
def Obligations.InterruptFiresExactlyTheDue : Prop :=
  ∀ s : State, s.Inv → s.Ordered → s.ServiceWindow → s.uif = true → s.uie = true →
    ∃ t, exec .onTimerUpdate s = .next t ∧
      ∀ i, ∀ due : Bool,
        due = (s.isScheduled i &&
          decide (sdiff (s.record i).nextFireUs ((s.g + s.cur.setWidth 64).setWidth 32) ≤ 0)) →
        t.isReady i = (s.isReady i || due) ∧
        t.isScheduled i = (s.isScheduled i && (!due || (s.record i).repeating)) ∧
        t.isFree i = s.isFree i ∧
        t.record i = (if due && (s.record i).repeating then
          { s.record i with
            nextFireUs := (s.g + s.cur.setWidth 64).setWidth 32 + (s.record i).periodUs }
          else s.record i)

/-- 42_timer_driver.md R168: while an enabled interrupt is always the next step, the quantity
`G + CNT` (`G + cur + CNT` with an update event pending) advances by exactly 1 at every TICK and
not at all at any other step: registration, cancellation, the overrun path and the interrupt lose
and invent no time. -/
def Obligations.PromptServiceConservesTime : Prop :=
  ∀ s t : State, s.CoreInv → s.started = true → s.promptInterrupt → step s = .next t →
    (s.nextIs .tick → t.realTime = s.realTime + 1#64) ∧
    (¬ s.nextIs .tick → t.realTime = s.realTime)

/-- 30_encoding.md R112 (RUN n) with 42_timer_driver.md R168: where `RUN n` completes, no
interrupt is left waiting and real time has advanced by `n`. -/
def Obligations.RunServesEveryInterrupt : Prop :=
  ∀ (n : Nat) (s t : State), s.CoreInv → s.started = true → s.irqLine = false →
    runPrompt n s = .next t →
      t.CoreInv ∧ t.irqLine = false ∧ t.realTime = s.realTime + BitVec.ofNat 64 n

/-! ### Drain -/

/-- 44_isr_and_drain.md R220: UPDATE with nothing ready answers at once; else it clears the lowest
ready bit, latches the slot and dispatches its callback. -/
def Obligations.UpdateDrainStep : Prop :=
  ∀ s : State, s.started = true → s.faulted = false → s.updActive = false →
    (s.ready = 0#32 →
      exec .update s = .next { s with
        updActive := false, outputs := s.outputs ++ [.response ⟨.ok, 0#64⟩] }) ∧
    ∀ i, s.lowestReady i →
      exec .update s = .next { s with
        ready := clearBit s.ready i, updSlot := i, updActive := true,
        outputs := s.outputs ++ [.dispatch (s.record i).callback i] }

/-- 44_isr_and_drain.md R221: CB_RETURN releases the slot of a one-shot, leaves a periodic one, and
performs the next drain step. -/
def Obligations.CallbackReturnReleasesAndDrains : Prop :=
  ∀ s : State, s.updActive = true → ∀ s1 : State,
    s1 = (if (s.record s.updSlot).repeating then s
      else { s with
        ready := clearBit s.ready s.updSlot, free := setBit s.free s.updSlot }) →
    (s1.ready = 0#32 →
      exec .cbReturn s = .next { s1 with
        updActive := false, outputs := s.outputs ++ [.response ⟨.ok, 0#64⟩] }) ∧
    ∀ i, s1.lowestReady i →
      exec .cbReturn s = .next { s1 with
        ready := clearBit s1.ready i, updSlot := i, updActive := true,
        outputs := s.outputs ++ [.dispatch (s.record i).callback i] }

/-- 70_reset_and_hazards.md R298: where the record in flight has become that of a scheduled
one-shot, the return of the callback leaves its slot free and scheduled at once. -/
def Obligations.ReusedRecordIsFreedWhileScheduled : Prop :=
  ∀ s : State, s.updActive = true → s.ready.extractLsb' 16 16 = 0#16 →
    (s.record s.updSlot).repeating = false → s.isScheduled s.updSlot = true →
    ∃ t, exec .cbReturn s = .next t ∧ t.isFree s.updSlot = true ∧
      t.isScheduled s.updSlot = true

/-! ### Outputs and frames over all operations -/

/-- 30_encoding.md R104 to R106: what leaves the block at each operation. A command other than
UPDATE gives exactly one response; UPDATE and CB_RETURN give either the response that ends the
drain or one dispatch; the timer's events give nothing; and a status other than OK carries the
value 0 and changes nothing but `faulted` (such an answer being a next state: log 6, log 7). -/
def Obligations.OutputsOfEachOperation : Prop :=
  ∀ (s t : State) (i : Instr), exec i s = .next t →
    (i = .tick ∨ i = .onTimerUpdate → t.outputs = s.outputs) ∧
    (i.source = .commandPort → i ≠ .update →
      ∃ r, t.outputs = s.outputs ++ [.response r]) ∧
    (i = .update → (∃ r, t.outputs = s.outputs ++ [.response r]) ∨
      (t.updActive = true ∧
        t.outputs = s.outputs ++ [.dispatch (t.record t.updSlot).callback t.updSlot])) ∧
    (i = .cbReturn →
      (t.updActive = false ∧ t.outputs = s.outputs ++ [.response ⟨.ok, 0#64⟩]) ∨
      (t.updActive = true ∧
        t.outputs = s.outputs ++ [.dispatch (t.record t.updSlot).callback t.updSlot])) ∧
    ∀ r : Response, t.outputs = s.outputs ++ [.response r] → r.status ≠ .ok →
      r.value = 0#64 ∧ t = { s with outputs := t.outputs, faulted := t.faulted } ∧
        (t.faulted ≠ s.faulted → r.status = .fault)

/-- 10_state.md R20 to R41, "Written by": which operation may write which element. -/
def Obligations.WhoWritesWhat : Prop :=
  ∀ (s t : State) (i : Instr), exec i s = .next t →
    t.platform = s.platform ∧ t.stimuli = s.stimuli ∧
    (t.psc ≠ s.psc ∨ t.uie ≠ s.uie ∨ t.started ≠ s.started ∨ t.faulted ≠ s.faulted → i = .start) ∧
    (t.gen ≠ s.gen → ∃ d cb, i = .setTimeout d cb) ∧
    (t.updActive ≠ s.updActive ∨ t.updSlot ≠ s.updSlot → i = .update ∨ i = .cbReturn) ∧
    (s.uif = false → t.uif = true → i = .tick) ∧
    (s.uif = true → t.uif = false → i = .start ∨ i = .onTimerUpdate) ∧
    (i = .update ∨ i = .getGlobalTick ∨ i = .cbReturn ∨ i = .tick →
      t.tasks = s.tasks ∧ t.sorted = s.sorted ∧ t.count = s.count ∧ t.g = s.g ∧ t.cur = s.cur ∧
        t.arr = s.arr ∧ t.cen = s.cen) ∧
    (t.cnt ≠ s.cnt → i ≠ .update ∧ i ≠ .getGlobalTick ∧ i ≠ .cbReturn) ∧
    (∀ j, t.isFree j = false → s.isFree j = true →
      (∃ d cb, i = .registerTask d cb) ∨ ∃ d cb, i = .setTimeout d cb) ∧
    (∀ j, t.isFree j = true → s.isFree j = false →
      (∃ id, i = .unregisterTask id) ∨ (∃ id, i = .cancelTimeout id) ∨ i = .cbReturn) ∧
    (∀ j, t.isReady j = true → s.isReady j = false → i = .onTimerUpdate) ∧
    ∀ j, t.record j ≠ { s.record j with nextFireUs := (t.record j).nextFireUs } →
      s.isFree j = true ∧
        ((∃ d cb, i = .registerTask d cb) ∨ ∃ d cb, i = .setTimeout d cb)

/-! ### The sorted index -/

/-- 41_sorted_index.md R147, round trip: inserting an absent slot and removing it again gives back
the state bit for bit. -/
def Obligations.InsertThenRemoveRestores : Prop :=
  ∀ (s : State) (i : Slot), s.CoreInv → s.count.toNat < 16 → s.isScheduled i = false →
    ∃ t, insertSorted i s = .ok t ∧ removeSorted i t = s

/-- 41_sorted_index.md R141, R142: into an ordered index whose deadlines and the new one lie within
2^31 of each other, `insert_sorted` puts the slot after every entry that is not later and before
every later one, and the index stays ordered. -/
def Obligations.InsertionKeepsDeadlineOrder : Prop :=
  ∀ (s : State) (i : Slot), s.count.toNat < 16 →
    (∀ p q, p < q → q < s.count.toNat → sdiff (deadlineAt s p) (deadlineAt s q) ≤ 0) →
    s.Within (s.record i).nextFireUs →
    ∃ t p, insertSorted i s = .ok t ∧ t.sorted = insertNibble s.sorted p i ∧
      p ≤ s.count.toNat ∧
      (∀ q < p, sdiff (deadlineAt s q) (s.record i).nextFireUs ≤ 0) ∧
      (∀ q, p ≤ q → q < s.count.toNat → 0 < sdiff (deadlineAt s q) (s.record i).nextFireUs) ∧
      ∀ a b, a < b → b < t.count.toNat → sdiff (deadlineAt t a) (deadlineAt t b) ≤ 0

/-- 41_sorted_index.md R144: the zero-nibble detector with its test against `count` finds exactly
the position of the abstract search of R143, false flags and slot 0 included. -/
def Obligations.DetectorFindsTheSearchedPosition : Prop :=
  ∀ (v : Packed) (count : Nat) (i : Slot), count ≤ 16 →
    detectPosition v count i = findPosition v count i

/-- 41_sorted_index.md R141: the insertion carried out on the two 32-bit halves is the 64-bit
insertion. -/
def Obligations.HalvesInsertionAgrees : Prop :=
  ∀ (v : Packed) (p : Nat) (i : Slot), p < 16 → insertByHalves v p i = insertNibble v p i

/-- 20_memory.md R76 and 70_reset_and_hazards.md R294: a periodic handle is its slot, below 16; a
one-shot handle carries its odd generation above its slot and is at least 0x0010; and a one-shot
handle is `INVALID_ID` exactly for generation 15 and slot 15. -/
def Obligations.HandleKindsNeverOverlap : Prop :=
  (∀ i : Slot, (periodicHandle i).toNat = i.toNat ∧ handleSlot (periodicHandle i) = i) ∧
  ∀ (k : Generation) (i : Slot), k.getLsbD 0 = true →
    handleSlot (oneShotHandle k i) = i ∧
    (oneShotHandle k i).toNat = i.toNat + k.toNat * 16 ∧
    16 ≤ (oneShotHandle k i).toNat ∧
    (oneShotHandle k i = Config.invalidId ↔ k = 15#12 ∧ i = 15#4)

/-- 70_reset_and_hazards.md R296 with 10_state.md R33: the generation counter comes back to a value
after 2048 advances, and not before, so a handle recurs no sooner than that. -/
def Obligations.GenerationReturnsAfter2048 : Prop :=
  ∀ (k : Generation) (n : Nat), nextGeneration^[n] k = k ↔ 2048 ∣ n

/-! ### Invariants -/

/-- 10_state.md R46: the reset values the spec gives (the other fields hold the model's choices,
log 1 and log 2, of which this says nothing). -/
def Obligations.ResetValuesOfTheSpec : Prop :=
  State.reset.free = 0x0000FFFF#32 ∧ State.reset.ready = 0#32 ∧ State.reset.sorted = 0#64 ∧
  State.reset.count = 0#5 ∧ State.reset.g = 0#64 ∧ State.reset.cur = 0#32 ∧
  State.reset.gen = 1#12 ∧ State.reset.cen = false ∧ State.reset.uif = false ∧
  State.reset.uie = false ∧ State.reset.started = false ∧ State.reset.faulted = false ∧
  State.reset.updActive = false

/-- 10_state.md R44, R46: the invariants hold after reset, whatever the records, `CNT`, `ARR`,
`PSC`, `upd_slot`, the platform and the schedule are (the spec gives them no value). -/
def Obligations.InvariantsAtReset : Prop :=
  ∀ (tasks : Vector TaskRecord 16) (cnt arr : Micros) (psc : Nat) (slot : Slot) (pl : Platform)
    (xs : List Stimulus) (os : List Output),
    State.Inv { State.reset with
      tasks := tasks, cnt := cnt, arr := arr, psc := psc, updSlot := slot, platform := pl,
      stimuli := xs, outputs := os }

/-- 10_state.md R44, V1, V5, V8 to V11: every step keeps the core invariants, whatever the host
does. -/
def Obligations.EveryStepKeepsCoreInvariants : Prop :=
  ∀ s t : State, s.CoreInv → step s = .next t → t.CoreInv

/-- 10_state.md R44, V1 to V6, V8 to V11: every step of a host that keeps its duty keeps all of
them. -/
def Obligations.DutifulStepsKeepInvariants : Prop :=
  ∀ s t : State, s.Inv → s.hostKeepsDuty → step s = .next t → t.Inv

/-- 10_state.md R44 V7 and 44_isr_and_drain.md R215: while no overrun occurs (the tick advances by
`cur` at the interrupt operation and not otherwise), every operation keeps the index ordered by
deadline, every deadline ahead of the tick, and `cur` equal to the distance of the front one. -/
def Obligations.OperationsWithoutOverrunStayTimely : Prop :=
  ∀ (s t : State) (i : Instr), s.Inv → s.Timely → exec i s = .next t →
    t.g = s.g + programmedAdvance s i → t.Timely

/-- 10_state.md R44 V7 under the duty H5 (70_reset_and_hazards.md R300): every operation keeps the
index in order by deadline, the overrun path and a late interrupt included, while the deadlines it
compares lie in one window of 2^31 (`windowDuty`). -/
def Obligations.OperationsInOneWindowKeepOrder : Prop :=
  ∀ (s t : State) (i : Instr), s.Inv → s.Ordered → windowDuty s i → exec i s = .next t →
    t.Ordered

/-- 93_implementation_defined.md U9, U10 and 60_exceptions.md R250: in a state with the invariants
no step faults. -/
def Obligations.NoFaultUnderInvariants : Prop :=
  ∀ (s : State) (f : Fault), s.Inv → step s ≠ .fault f

/-- 93_implementation_defined.md U9: with the core invariants alone, the one fault a step can end
in is an insertion into a full index, and only a registration can reach it (the model's choice for
that case: log 9). -/
def Obligations.OnlyAFullIndexCanFault : Prop :=
  ∀ (s : State) (f : Fault), s.CoreInv → step s = .fault f →
    f = .indexFull ∧ s.count.toNat = 16 ∧ s.free ≠ 0#32 ∧
      ((∃ d cb, s.nextIs (.registerTask d cb)) ∨ ∃ d cb, s.nextIs (.setTimeout d cb))

/-- 10_state.md R43: a started block is in exactly one of Idle and Armed. -/
def Obligations.StartedBlockIsIdleOrArmed : Prop :=
  ∀ s : State, s.CoreInv → s.started = true → s.isIdle = !s.isArmed

/-- 10_state.md R45 and V11: each slot is in the condition R45 names, and no more slots are
scheduled than are occupied. -/
def Obligations.SlotLifecycleConditions : Prop :=
  ∀ s : State, s.Inv →
    s.count.toNat ≤ ((List.range 16).filter fun i => !s.isFree (BitVec.ofNat 4 i)).length ∧
    ∀ i : Slot,
      (s.slotCondition i = .scheduledAndReady → (s.record i).repeating = true) ∧
      (s.slotCondition i = .ready → (s.record i).repeating = false) ∧
      (s.slotCondition i = .inFlight → s.isInFlight i = true ∧ (s.record i).repeating = false)

/-- 10_state.md R46, R20 and 93_implementation_defined.md U1: no rule reads what the spec leaves
unspecified. Two states that differ only there give the same outcome, and next states that again
differ only there; so nothing rests on the reset values the model chose (log 1). -/
def Obligations.UnspecifiedValuesAreNeverRead : Prop :=
  ∀ s t : State, s.Inv → SameSpecified s t →
    match step s with
    | .next s1 => ∃ t1, step t = .next t1 ∧ SameSpecified s1 t1
    | .fault f => step t = .fault f
    | .refused r => step t = .refused r
end

