-- ==== Sys2Proof/Laws/State.lean ====
section
/-! SUPPORT. What each update of the state leaves in each field: one lemma per field per update,
true by `rfl` and tagged `@[simp]`, and the same for the records and the 32-bit tick. -/

namespace Sys2Proof.Machine

/-! ### State.setRecord -/

@[simp] theorem State.setRecord_tasks (s : State) (i : Slot) (r : TaskRecord) :
    (s.setRecord i r).tasks = s.tasks.set i.toNat r i.isLt := rfl
@[simp] theorem State.setRecord_free (s : State) (i : Slot) (r : TaskRecord) :
    (s.setRecord i r).free = s.free := rfl
@[simp] theorem State.setRecord_ready (s : State) (i : Slot) (r : TaskRecord) :
    (s.setRecord i r).ready = s.ready := rfl
@[simp] theorem State.setRecord_sorted (s : State) (i : Slot) (r : TaskRecord) :
    (s.setRecord i r).sorted = s.sorted := rfl
@[simp] theorem State.setRecord_count (s : State) (i : Slot) (r : TaskRecord) :
    (s.setRecord i r).count = s.count := rfl
@[simp] theorem State.setRecord_g (s : State) (i : Slot) (r : TaskRecord) :
    (s.setRecord i r).g = s.g := rfl
@[simp] theorem State.setRecord_cur (s : State) (i : Slot) (r : TaskRecord) :
    (s.setRecord i r).cur = s.cur := rfl
@[simp] theorem State.setRecord_gen (s : State) (i : Slot) (r : TaskRecord) :
    (s.setRecord i r).gen = s.gen := rfl
@[simp] theorem State.setRecord_cnt (s : State) (i : Slot) (r : TaskRecord) :
    (s.setRecord i r).cnt = s.cnt := rfl
@[simp] theorem State.setRecord_arr (s : State) (i : Slot) (r : TaskRecord) :
    (s.setRecord i r).arr = s.arr := rfl
@[simp] theorem State.setRecord_psc (s : State) (i : Slot) (r : TaskRecord) :
    (s.setRecord i r).psc = s.psc := rfl
@[simp] theorem State.setRecord_cen (s : State) (i : Slot) (r : TaskRecord) :
    (s.setRecord i r).cen = s.cen := rfl
@[simp] theorem State.setRecord_uif (s : State) (i : Slot) (r : TaskRecord) :
    (s.setRecord i r).uif = s.uif := rfl
@[simp] theorem State.setRecord_uie (s : State) (i : Slot) (r : TaskRecord) :
    (s.setRecord i r).uie = s.uie := rfl
@[simp] theorem State.setRecord_started (s : State) (i : Slot) (r : TaskRecord) :
    (s.setRecord i r).started = s.started := rfl
@[simp] theorem State.setRecord_faulted (s : State) (i : Slot) (r : TaskRecord) :
    (s.setRecord i r).faulted = s.faulted := rfl
@[simp] theorem State.setRecord_updActive (s : State) (i : Slot) (r : TaskRecord) :
    (s.setRecord i r).updActive = s.updActive := rfl
@[simp] theorem State.setRecord_updSlot (s : State) (i : Slot) (r : TaskRecord) :
    (s.setRecord i r).updSlot = s.updSlot := rfl
@[simp] theorem State.setRecord_platform (s : State) (i : Slot) (r : TaskRecord) :
    (s.setRecord i r).platform = s.platform := rfl
@[simp] theorem State.setRecord_stimuli (s : State) (i : Slot) (r : TaskRecord) :
    (s.setRecord i r).stimuli = s.stimuli := rfl
@[simp] theorem State.setRecord_outputs (s : State) (i : Slot) (r : TaskRecord) :
    (s.setRecord i r).outputs = s.outputs := rfl
@[simp] theorem State.setRecord_g32 (s : State) (i : Slot) (r : TaskRecord) : (s.setRecord i r).g32 = s.g32 := rfl

/-! ### State.emit -/

@[simp] theorem State.emit_tasks (s : State) (o : Output) : (s.emit o).tasks = s.tasks := rfl
@[simp] theorem State.emit_free (s : State) (o : Output) : (s.emit o).free = s.free := rfl
@[simp] theorem State.emit_ready (s : State) (o : Output) : (s.emit o).ready = s.ready := rfl
@[simp] theorem State.emit_sorted (s : State) (o : Output) : (s.emit o).sorted = s.sorted := rfl
@[simp] theorem State.emit_count (s : State) (o : Output) : (s.emit o).count = s.count := rfl
@[simp] theorem State.emit_g (s : State) (o : Output) : (s.emit o).g = s.g := rfl
@[simp] theorem State.emit_cur (s : State) (o : Output) : (s.emit o).cur = s.cur := rfl
@[simp] theorem State.emit_gen (s : State) (o : Output) : (s.emit o).gen = s.gen := rfl
@[simp] theorem State.emit_cnt (s : State) (o : Output) : (s.emit o).cnt = s.cnt := rfl
@[simp] theorem State.emit_arr (s : State) (o : Output) : (s.emit o).arr = s.arr := rfl
@[simp] theorem State.emit_psc (s : State) (o : Output) : (s.emit o).psc = s.psc := rfl
@[simp] theorem State.emit_cen (s : State) (o : Output) : (s.emit o).cen = s.cen := rfl
@[simp] theorem State.emit_uif (s : State) (o : Output) : (s.emit o).uif = s.uif := rfl
@[simp] theorem State.emit_uie (s : State) (o : Output) : (s.emit o).uie = s.uie := rfl
@[simp] theorem State.emit_started (s : State) (o : Output) :
    (s.emit o).started = s.started := rfl
@[simp] theorem State.emit_faulted (s : State) (o : Output) :
    (s.emit o).faulted = s.faulted := rfl
@[simp] theorem State.emit_updActive (s : State) (o : Output) :
    (s.emit o).updActive = s.updActive := rfl
@[simp] theorem State.emit_updSlot (s : State) (o : Output) :
    (s.emit o).updSlot = s.updSlot := rfl
@[simp] theorem State.emit_platform (s : State) (o : Output) :
    (s.emit o).platform = s.platform := rfl
@[simp] theorem State.emit_stimuli (s : State) (o : Output) :
    (s.emit o).stimuli = s.stimuli := rfl
@[simp] theorem State.emit_outputs (s : State) (o : Output) :
    (s.emit o).outputs = s.outputs ++ [o] := rfl
@[simp] theorem State.emit_record (s : State) (o : Output) (j : Slot) :
    (s.emit o).record j = s.record j := rfl
@[simp] theorem State.emit_g32 (s : State) (o : Output) : (s.emit o).g32 = s.g32 := rfl

/-! ### State.respond -/

@[simp] theorem State.respond_tasks (s : State) (st : Status) (v : BitVec 64) :
    (s.respond st v).tasks = s.tasks := rfl
@[simp] theorem State.respond_free (s : State) (st : Status) (v : BitVec 64) :
    (s.respond st v).free = s.free := rfl
@[simp] theorem State.respond_ready (s : State) (st : Status) (v : BitVec 64) :
    (s.respond st v).ready = s.ready := rfl
@[simp] theorem State.respond_sorted (s : State) (st : Status) (v : BitVec 64) :
    (s.respond st v).sorted = s.sorted := rfl
@[simp] theorem State.respond_count (s : State) (st : Status) (v : BitVec 64) :
    (s.respond st v).count = s.count := rfl
@[simp] theorem State.respond_g (s : State) (st : Status) (v : BitVec 64) :
    (s.respond st v).g = s.g := rfl
@[simp] theorem State.respond_cur (s : State) (st : Status) (v : BitVec 64) :
    (s.respond st v).cur = s.cur := rfl
@[simp] theorem State.respond_gen (s : State) (st : Status) (v : BitVec 64) :
    (s.respond st v).gen = s.gen := rfl
@[simp] theorem State.respond_cnt (s : State) (st : Status) (v : BitVec 64) :
    (s.respond st v).cnt = s.cnt := rfl
@[simp] theorem State.respond_arr (s : State) (st : Status) (v : BitVec 64) :
    (s.respond st v).arr = s.arr := rfl
@[simp] theorem State.respond_psc (s : State) (st : Status) (v : BitVec 64) :
    (s.respond st v).psc = s.psc := rfl
@[simp] theorem State.respond_cen (s : State) (st : Status) (v : BitVec 64) :
    (s.respond st v).cen = s.cen := rfl
@[simp] theorem State.respond_uif (s : State) (st : Status) (v : BitVec 64) :
    (s.respond st v).uif = s.uif := rfl
@[simp] theorem State.respond_uie (s : State) (st : Status) (v : BitVec 64) :
    (s.respond st v).uie = s.uie := rfl
@[simp] theorem State.respond_started (s : State) (st : Status) (v : BitVec 64) :
    (s.respond st v).started = s.started := rfl
@[simp] theorem State.respond_faulted (s : State) (st : Status) (v : BitVec 64) :
    (s.respond st v).faulted = s.faulted := rfl
@[simp] theorem State.respond_updActive (s : State) (st : Status) (v : BitVec 64) :
    (s.respond st v).updActive = s.updActive := rfl
@[simp] theorem State.respond_updSlot (s : State) (st : Status) (v : BitVec 64) :
    (s.respond st v).updSlot = s.updSlot := rfl
@[simp] theorem State.respond_platform (s : State) (st : Status) (v : BitVec 64) :
    (s.respond st v).platform = s.platform := rfl
@[simp] theorem State.respond_stimuli (s : State) (st : Status) (v : BitVec 64) :
    (s.respond st v).stimuli = s.stimuli := rfl
@[simp] theorem State.respond_outputs (s : State) (st : Status) (v : BitVec 64) :
    (s.respond st v).outputs = s.outputs ++ [.response ⟨st, v⟩] := rfl
@[simp] theorem State.respond_record (s : State) (st : Status) (v : BitVec 64) (j : Slot) :
    (s.respond st v).record j = s.record j := rfl
@[simp] theorem State.respond_g32 (s : State) (st : Status) (v : BitVec 64) : (s.respond st v).g32 = s.g32 := rfl

/-! ### State.tail -/

@[simp] theorem State.tail_tasks (s : State) : (s.tail).tasks = s.tasks := rfl
@[simp] theorem State.tail_free (s : State) : (s.tail).free = s.free := rfl
@[simp] theorem State.tail_ready (s : State) : (s.tail).ready = s.ready := rfl
@[simp] theorem State.tail_sorted (s : State) : (s.tail).sorted = s.sorted := rfl
@[simp] theorem State.tail_count (s : State) : (s.tail).count = s.count := rfl
@[simp] theorem State.tail_g (s : State) : (s.tail).g = s.g := rfl
@[simp] theorem State.tail_cur (s : State) : (s.tail).cur = s.cur := rfl
@[simp] theorem State.tail_gen (s : State) : (s.tail).gen = s.gen := rfl
@[simp] theorem State.tail_cnt (s : State) : (s.tail).cnt = s.cnt := rfl
@[simp] theorem State.tail_arr (s : State) : (s.tail).arr = s.arr := rfl
@[simp] theorem State.tail_psc (s : State) : (s.tail).psc = s.psc := rfl
@[simp] theorem State.tail_cen (s : State) : (s.tail).cen = s.cen := rfl
@[simp] theorem State.tail_uif (s : State) : (s.tail).uif = s.uif := rfl
@[simp] theorem State.tail_uie (s : State) : (s.tail).uie = s.uie := rfl
@[simp] theorem State.tail_started (s : State) : (s.tail).started = s.started := rfl
@[simp] theorem State.tail_faulted (s : State) : (s.tail).faulted = s.faulted := rfl
@[simp] theorem State.tail_updActive (s : State) : (s.tail).updActive = s.updActive := rfl
@[simp] theorem State.tail_updSlot (s : State) : (s.tail).updSlot = s.updSlot := rfl
@[simp] theorem State.tail_platform (s : State) : (s.tail).platform = s.platform := rfl
@[simp] theorem State.tail_stimuli (s : State) : (s.tail).stimuli = s.stimuli.tail := rfl
@[simp] theorem State.tail_outputs (s : State) : (s.tail).outputs = s.outputs := rfl
@[simp] theorem State.tail_record (s : State) (j : Slot) :
    (s.tail).record j = s.record j := rfl
@[simp] theorem State.tail_g32 (s : State) : (s.tail).g32 = s.g32 := rfl

/-! ### releaseSlot -/

@[simp] theorem releaseSlot_tasks (i : Slot) (s : State) :
    (releaseSlot i s).tasks = s.tasks := rfl
@[simp] theorem releaseSlot_free (i : Slot) (s : State) :
    (releaseSlot i s).free = setBit s.free i := rfl
@[simp] theorem releaseSlot_ready (i : Slot) (s : State) :
    (releaseSlot i s).ready = clearBit s.ready i := rfl
@[simp] theorem releaseSlot_sorted (i : Slot) (s : State) :
    (releaseSlot i s).sorted = s.sorted := rfl
@[simp] theorem releaseSlot_count (i : Slot) (s : State) :
    (releaseSlot i s).count = s.count := rfl
@[simp] theorem releaseSlot_g (i : Slot) (s : State) : (releaseSlot i s).g = s.g := rfl
@[simp] theorem releaseSlot_cur (i : Slot) (s : State) : (releaseSlot i s).cur = s.cur := rfl
@[simp] theorem releaseSlot_gen (i : Slot) (s : State) : (releaseSlot i s).gen = s.gen := rfl
@[simp] theorem releaseSlot_cnt (i : Slot) (s : State) : (releaseSlot i s).cnt = s.cnt := rfl
@[simp] theorem releaseSlot_arr (i : Slot) (s : State) : (releaseSlot i s).arr = s.arr := rfl
@[simp] theorem releaseSlot_psc (i : Slot) (s : State) : (releaseSlot i s).psc = s.psc := rfl
@[simp] theorem releaseSlot_cen (i : Slot) (s : State) : (releaseSlot i s).cen = s.cen := rfl
@[simp] theorem releaseSlot_uif (i : Slot) (s : State) : (releaseSlot i s).uif = s.uif := rfl
@[simp] theorem releaseSlot_uie (i : Slot) (s : State) : (releaseSlot i s).uie = s.uie := rfl
@[simp] theorem releaseSlot_started (i : Slot) (s : State) :
    (releaseSlot i s).started = s.started := rfl
@[simp] theorem releaseSlot_faulted (i : Slot) (s : State) :
    (releaseSlot i s).faulted = s.faulted := rfl
@[simp] theorem releaseSlot_updActive (i : Slot) (s : State) :
    (releaseSlot i s).updActive = s.updActive := rfl
@[simp] theorem releaseSlot_updSlot (i : Slot) (s : State) :
    (releaseSlot i s).updSlot = s.updSlot := rfl
@[simp] theorem releaseSlot_platform (i : Slot) (s : State) :
    (releaseSlot i s).platform = s.platform := rfl
@[simp] theorem releaseSlot_stimuli (i : Slot) (s : State) :
    (releaseSlot i s).stimuli = s.stimuli := rfl
@[simp] theorem releaseSlot_outputs (i : Slot) (s : State) :
    (releaseSlot i s).outputs = s.outputs := rfl
@[simp] theorem releaseSlot_record (i : Slot) (s : State) (j : Slot) :
    (releaseSlot i s).record j = s.record j := rfl
@[simp] theorem releaseSlot_g32 (i : Slot) (s : State) : (releaseSlot i s).g32 = s.g32 := rfl

/-! ### configureTimerForInterval -/

@[simp] theorem configureTimerForInterval_tasks (us : Micros) (s : State) :
    (configureTimerForInterval us s).tasks = s.tasks := rfl
@[simp] theorem configureTimerForInterval_free (us : Micros) (s : State) :
    (configureTimerForInterval us s).free = s.free := rfl
@[simp] theorem configureTimerForInterval_ready (us : Micros) (s : State) :
    (configureTimerForInterval us s).ready = s.ready := rfl
@[simp] theorem configureTimerForInterval_sorted (us : Micros) (s : State) :
    (configureTimerForInterval us s).sorted = s.sorted := rfl
@[simp] theorem configureTimerForInterval_count (us : Micros) (s : State) :
    (configureTimerForInterval us s).count = s.count := rfl
@[simp] theorem configureTimerForInterval_g (us : Micros) (s : State) :
    (configureTimerForInterval us s).g = s.g := rfl
@[simp] theorem configureTimerForInterval_cur (us : Micros) (s : State) :
    (configureTimerForInterval us s).cur = s.cur := rfl
@[simp] theorem configureTimerForInterval_gen (us : Micros) (s : State) :
    (configureTimerForInterval us s).gen = s.gen := rfl
@[simp] theorem configureTimerForInterval_cnt (us : Micros) (s : State) :
    (configureTimerForInterval us s).cnt = s.cnt := rfl
@[simp] theorem configureTimerForInterval_arr (us : Micros) (s : State) :
    (configureTimerForInterval us s).arr = (if us = 0#32 then 1#32 else us) - 1#32 := rfl
@[simp] theorem configureTimerForInterval_psc (us : Micros) (s : State) :
    (configureTimerForInterval us s).psc = s.psc := rfl
@[simp] theorem configureTimerForInterval_cen (us : Micros) (s : State) :
    (configureTimerForInterval us s).cen = s.cen := rfl
@[simp] theorem configureTimerForInterval_uif (us : Micros) (s : State) :
    (configureTimerForInterval us s).uif = s.uif := rfl
@[simp] theorem configureTimerForInterval_uie (us : Micros) (s : State) :
    (configureTimerForInterval us s).uie = s.uie := rfl
@[simp] theorem configureTimerForInterval_started (us : Micros) (s : State) :
    (configureTimerForInterval us s).started = s.started := rfl
@[simp] theorem configureTimerForInterval_faulted (us : Micros) (s : State) :
    (configureTimerForInterval us s).faulted = s.faulted := rfl
@[simp] theorem configureTimerForInterval_updActive (us : Micros) (s : State) :
    (configureTimerForInterval us s).updActive = s.updActive := rfl
@[simp] theorem configureTimerForInterval_updSlot (us : Micros) (s : State) :
    (configureTimerForInterval us s).updSlot = s.updSlot := rfl
@[simp] theorem configureTimerForInterval_platform (us : Micros) (s : State) :
    (configureTimerForInterval us s).platform = s.platform := rfl
@[simp] theorem configureTimerForInterval_stimuli (us : Micros) (s : State) :
    (configureTimerForInterval us s).stimuli = s.stimuli := rfl
@[simp] theorem configureTimerForInterval_outputs (us : Micros) (s : State) :
    (configureTimerForInterval us s).outputs = s.outputs := rfl
@[simp] theorem configureTimerForInterval_record (us : Micros) (s : State) (j : Slot) :
    (configureTimerForInterval us s).record j = s.record j := rfl
@[simp] theorem configureTimerForInterval_g32 (us : Micros) (s : State) : (configureTimerForInterval us s).g32 = s.g32 := rfl

/-! ### globalTimerEnable -/

@[simp] theorem globalTimerEnable_tasks (s : State) : (globalTimerEnable s).tasks = s.tasks := rfl
@[simp] theorem globalTimerEnable_free (s : State) : (globalTimerEnable s).free = s.free := rfl
@[simp] theorem globalTimerEnable_ready (s : State) : (globalTimerEnable s).ready = s.ready := rfl
@[simp] theorem globalTimerEnable_sorted (s : State) :
    (globalTimerEnable s).sorted = s.sorted := rfl
@[simp] theorem globalTimerEnable_count (s : State) : (globalTimerEnable s).count = s.count := rfl
@[simp] theorem globalTimerEnable_g (s : State) : (globalTimerEnable s).g = s.g := rfl
@[simp] theorem globalTimerEnable_cur (s : State) : (globalTimerEnable s).cur = s.cur := rfl
@[simp] theorem globalTimerEnable_gen (s : State) : (globalTimerEnable s).gen = s.gen := rfl
@[simp] theorem globalTimerEnable_cnt (s : State) : (globalTimerEnable s).cnt = s.cnt := rfl
@[simp] theorem globalTimerEnable_arr (s : State) : (globalTimerEnable s).arr = s.arr := rfl
@[simp] theorem globalTimerEnable_psc (s : State) : (globalTimerEnable s).psc = s.psc := rfl
@[simp] theorem globalTimerEnable_cen (s : State) : (globalTimerEnable s).cen = true := rfl
@[simp] theorem globalTimerEnable_uif (s : State) : (globalTimerEnable s).uif = s.uif := rfl
@[simp] theorem globalTimerEnable_uie (s : State) : (globalTimerEnable s).uie = s.uie := rfl
@[simp] theorem globalTimerEnable_started (s : State) :
    (globalTimerEnable s).started = s.started := rfl
@[simp] theorem globalTimerEnable_faulted (s : State) :
    (globalTimerEnable s).faulted = s.faulted := rfl
@[simp] theorem globalTimerEnable_updActive (s : State) :
    (globalTimerEnable s).updActive = s.updActive := rfl
@[simp] theorem globalTimerEnable_updSlot (s : State) :
    (globalTimerEnable s).updSlot = s.updSlot := rfl
@[simp] theorem globalTimerEnable_platform (s : State) :
    (globalTimerEnable s).platform = s.platform := rfl
@[simp] theorem globalTimerEnable_stimuli (s : State) :
    (globalTimerEnable s).stimuli = s.stimuli := rfl
@[simp] theorem globalTimerEnable_outputs (s : State) :
    (globalTimerEnable s).outputs = s.outputs := rfl
@[simp] theorem globalTimerEnable_record (s : State) (j : Slot) :
    (globalTimerEnable s).record j = s.record j := rfl
@[simp] theorem globalTimerEnable_g32 (s : State) : (globalTimerEnable s).g32 = s.g32 := rfl

/-! ### globalTimerDisable -/

@[simp] theorem globalTimerDisable_tasks (s : State) :
    (globalTimerDisable s).tasks = s.tasks := rfl
@[simp] theorem globalTimerDisable_free (s : State) : (globalTimerDisable s).free = s.free := rfl
@[simp] theorem globalTimerDisable_ready (s : State) :
    (globalTimerDisable s).ready = s.ready := rfl
@[simp] theorem globalTimerDisable_sorted (s : State) :
    (globalTimerDisable s).sorted = s.sorted := rfl
@[simp] theorem globalTimerDisable_count (s : State) :
    (globalTimerDisable s).count = s.count := rfl
@[simp] theorem globalTimerDisable_g (s : State) : (globalTimerDisable s).g = s.g := rfl
@[simp] theorem globalTimerDisable_cur (s : State) : (globalTimerDisable s).cur = s.cur := rfl
@[simp] theorem globalTimerDisable_gen (s : State) : (globalTimerDisable s).gen = s.gen := rfl
@[simp] theorem globalTimerDisable_cnt (s : State) : (globalTimerDisable s).cnt = s.cnt := rfl
@[simp] theorem globalTimerDisable_arr (s : State) : (globalTimerDisable s).arr = s.arr := rfl
@[simp] theorem globalTimerDisable_psc (s : State) : (globalTimerDisable s).psc = s.psc := rfl
@[simp] theorem globalTimerDisable_cen (s : State) : (globalTimerDisable s).cen = false := rfl
@[simp] theorem globalTimerDisable_uif (s : State) : (globalTimerDisable s).uif = s.uif := rfl
@[simp] theorem globalTimerDisable_uie (s : State) : (globalTimerDisable s).uie = s.uie := rfl
@[simp] theorem globalTimerDisable_started (s : State) :
    (globalTimerDisable s).started = s.started := rfl
@[simp] theorem globalTimerDisable_faulted (s : State) :
    (globalTimerDisable s).faulted = s.faulted := rfl
@[simp] theorem globalTimerDisable_updActive (s : State) :
    (globalTimerDisable s).updActive = s.updActive := rfl
@[simp] theorem globalTimerDisable_updSlot (s : State) :
    (globalTimerDisable s).updSlot = s.updSlot := rfl
@[simp] theorem globalTimerDisable_platform (s : State) :
    (globalTimerDisable s).platform = s.platform := rfl
@[simp] theorem globalTimerDisable_stimuli (s : State) :
    (globalTimerDisable s).stimuli = s.stimuli := rfl
@[simp] theorem globalTimerDisable_outputs (s : State) :
    (globalTimerDisable s).outputs = s.outputs := rfl
@[simp] theorem globalTimerDisable_record (s : State) (j : Slot) :
    (globalTimerDisable s).record j = s.record j := rfl
@[simp] theorem globalTimerDisable_g32 (s : State) : (globalTimerDisable s).g32 = s.g32 := rfl

/-! ### forceUpdateEvent -/

@[simp] theorem forceUpdateEvent_tasks (s : State) : (forceUpdateEvent s).tasks = s.tasks := rfl
@[simp] theorem forceUpdateEvent_free (s : State) : (forceUpdateEvent s).free = s.free := rfl
@[simp] theorem forceUpdateEvent_ready (s : State) : (forceUpdateEvent s).ready = s.ready := rfl
@[simp] theorem forceUpdateEvent_sorted (s : State) :
    (forceUpdateEvent s).sorted = s.sorted := rfl
@[simp] theorem forceUpdateEvent_count (s : State) : (forceUpdateEvent s).count = s.count := rfl
@[simp] theorem forceUpdateEvent_g (s : State) :
    (forceUpdateEvent s).g = s.g + s.cnt.setWidth 64 := rfl
@[simp] theorem forceUpdateEvent_cur (s : State) : (forceUpdateEvent s).cur = s.cur := rfl
@[simp] theorem forceUpdateEvent_gen (s : State) : (forceUpdateEvent s).gen = s.gen := rfl
@[simp] theorem forceUpdateEvent_cnt (s : State) : (forceUpdateEvent s).cnt = 0#32 := rfl
@[simp] theorem forceUpdateEvent_arr (s : State) : (forceUpdateEvent s).arr = s.arr := rfl
@[simp] theorem forceUpdateEvent_psc (s : State) : (forceUpdateEvent s).psc = s.psc := rfl
@[simp] theorem forceUpdateEvent_cen (s : State) : (forceUpdateEvent s).cen = s.cen := rfl
@[simp] theorem forceUpdateEvent_uif (s : State) : (forceUpdateEvent s).uif = s.uif := rfl
@[simp] theorem forceUpdateEvent_uie (s : State) : (forceUpdateEvent s).uie = s.uie := rfl
@[simp] theorem forceUpdateEvent_started (s : State) :
    (forceUpdateEvent s).started = s.started := rfl
@[simp] theorem forceUpdateEvent_faulted (s : State) :
    (forceUpdateEvent s).faulted = s.faulted := rfl
@[simp] theorem forceUpdateEvent_updActive (s : State) :
    (forceUpdateEvent s).updActive = s.updActive := rfl
@[simp] theorem forceUpdateEvent_updSlot (s : State) :
    (forceUpdateEvent s).updSlot = s.updSlot := rfl
@[simp] theorem forceUpdateEvent_platform (s : State) :
    (forceUpdateEvent s).platform = s.platform := rfl
@[simp] theorem forceUpdateEvent_stimuli (s : State) :
    (forceUpdateEvent s).stimuli = s.stimuli := rfl
@[simp] theorem forceUpdateEvent_outputs (s : State) :
    (forceUpdateEvent s).outputs = s.outputs := rfl
@[simp] theorem forceUpdateEvent_record (s : State) (j : Slot) :
    (forceUpdateEvent s).record j = s.record j := rfl

/-! ### acknowledgeUpdate -/

@[simp] theorem acknowledgeUpdate_tasks (s : State) : (acknowledgeUpdate s).tasks = s.tasks := rfl
@[simp] theorem acknowledgeUpdate_free (s : State) : (acknowledgeUpdate s).free = s.free := rfl
@[simp] theorem acknowledgeUpdate_ready (s : State) : (acknowledgeUpdate s).ready = s.ready := rfl
@[simp] theorem acknowledgeUpdate_sorted (s : State) :
    (acknowledgeUpdate s).sorted = s.sorted := rfl
@[simp] theorem acknowledgeUpdate_count (s : State) : (acknowledgeUpdate s).count = s.count := rfl
@[simp] theorem acknowledgeUpdate_g (s : State) : (acknowledgeUpdate s).g = s.g := rfl
@[simp] theorem acknowledgeUpdate_cur (s : State) : (acknowledgeUpdate s).cur = s.cur := rfl
@[simp] theorem acknowledgeUpdate_gen (s : State) : (acknowledgeUpdate s).gen = s.gen := rfl
@[simp] theorem acknowledgeUpdate_cnt (s : State) : (acknowledgeUpdate s).cnt = s.cnt := rfl
@[simp] theorem acknowledgeUpdate_arr (s : State) : (acknowledgeUpdate s).arr = s.arr := rfl
@[simp] theorem acknowledgeUpdate_psc (s : State) : (acknowledgeUpdate s).psc = s.psc := rfl
@[simp] theorem acknowledgeUpdate_cen (s : State) : (acknowledgeUpdate s).cen = s.cen := rfl
@[simp] theorem acknowledgeUpdate_uif (s : State) : (acknowledgeUpdate s).uif = false := rfl
@[simp] theorem acknowledgeUpdate_uie (s : State) : (acknowledgeUpdate s).uie = s.uie := rfl
@[simp] theorem acknowledgeUpdate_started (s : State) :
    (acknowledgeUpdate s).started = s.started := rfl
@[simp] theorem acknowledgeUpdate_faulted (s : State) :
    (acknowledgeUpdate s).faulted = s.faulted := rfl
@[simp] theorem acknowledgeUpdate_updActive (s : State) :
    (acknowledgeUpdate s).updActive = s.updActive := rfl
@[simp] theorem acknowledgeUpdate_updSlot (s : State) :
    (acknowledgeUpdate s).updSlot = s.updSlot := rfl
@[simp] theorem acknowledgeUpdate_platform (s : State) :
    (acknowledgeUpdate s).platform = s.platform := rfl
@[simp] theorem acknowledgeUpdate_stimuli (s : State) :
    (acknowledgeUpdate s).stimuli = s.stimuli := rfl
@[simp] theorem acknowledgeUpdate_outputs (s : State) :
    (acknowledgeUpdate s).outputs = s.outputs := rfl
@[simp] theorem acknowledgeUpdate_record (s : State) (j : Slot) :
    (acknowledgeUpdate s).record j = s.record j := rfl
@[simp] theorem acknowledgeUpdate_g32 (s : State) : (acknowledgeUpdate s).g32 = s.g32 := rfl

/-! ### advanceTick -/

@[simp] theorem advanceTick_tasks (s : State) : (advanceTick s).tasks = s.tasks := rfl
@[simp] theorem advanceTick_free (s : State) : (advanceTick s).free = s.free := rfl
@[simp] theorem advanceTick_ready (s : State) : (advanceTick s).ready = s.ready := rfl
@[simp] theorem advanceTick_sorted (s : State) : (advanceTick s).sorted = s.sorted := rfl
@[simp] theorem advanceTick_count (s : State) : (advanceTick s).count = s.count := rfl
@[simp] theorem advanceTick_g (s : State) : (advanceTick s).g = s.g + s.cur.setWidth 64 := rfl
@[simp] theorem advanceTick_cur (s : State) : (advanceTick s).cur = s.cur := rfl
@[simp] theorem advanceTick_gen (s : State) : (advanceTick s).gen = s.gen := rfl
@[simp] theorem advanceTick_cnt (s : State) : (advanceTick s).cnt = s.cnt := rfl
@[simp] theorem advanceTick_arr (s : State) : (advanceTick s).arr = s.arr := rfl
@[simp] theorem advanceTick_psc (s : State) : (advanceTick s).psc = s.psc := rfl
@[simp] theorem advanceTick_cen (s : State) : (advanceTick s).cen = s.cen := rfl
@[simp] theorem advanceTick_uif (s : State) : (advanceTick s).uif = s.uif := rfl
@[simp] theorem advanceTick_uie (s : State) : (advanceTick s).uie = s.uie := rfl
@[simp] theorem advanceTick_started (s : State) : (advanceTick s).started = s.started := rfl
@[simp] theorem advanceTick_faulted (s : State) : (advanceTick s).faulted = s.faulted := rfl
@[simp] theorem advanceTick_updActive (s : State) : (advanceTick s).updActive = s.updActive := rfl
@[simp] theorem advanceTick_updSlot (s : State) : (advanceTick s).updSlot = s.updSlot := rfl
@[simp] theorem advanceTick_platform (s : State) : (advanceTick s).platform = s.platform := rfl
@[simp] theorem advanceTick_stimuli (s : State) : (advanceTick s).stimuli = s.stimuli := rfl
@[simp] theorem advanceTick_outputs (s : State) : (advanceTick s).outputs = s.outputs := rfl
@[simp] theorem advanceTick_record (s : State) (j : Slot) :
    (advanceTick s).record j = s.record j := rfl

/-! ### storeRegistration -/

@[simp] theorem storeRegistration_tasks (s : State) (p : Micros) (cb : Token) (rep : Bool) (i : Slot) :
    (storeRegistration s p cb rep i).tasks = s.tasks.set i.toNat (newRecord s p cb rep i) i.isLt := rfl
@[simp] theorem storeRegistration_free (s : State) (p : Micros) (cb : Token) (rep : Bool) (i : Slot) :
    (storeRegistration s p cb rep i).free = s.free := rfl
@[simp] theorem storeRegistration_ready (s : State) (p : Micros) (cb : Token) (rep : Bool) (i : Slot) :
    (storeRegistration s p cb rep i).ready = s.ready := rfl
@[simp] theorem storeRegistration_sorted (s : State) (p : Micros) (cb : Token) (rep : Bool) (i : Slot) :
    (storeRegistration s p cb rep i).sorted = s.sorted := rfl
@[simp] theorem storeRegistration_count (s : State) (p : Micros) (cb : Token) (rep : Bool) (i : Slot) :
    (storeRegistration s p cb rep i).count = s.count := rfl
@[simp] theorem storeRegistration_g (s : State) (p : Micros) (cb : Token) (rep : Bool) (i : Slot) :
    (storeRegistration s p cb rep i).g = s.g := rfl
@[simp] theorem storeRegistration_cur (s : State) (p : Micros) (cb : Token) (rep : Bool) (i : Slot) :
    (storeRegistration s p cb rep i).cur = s.cur := rfl
@[simp] theorem storeRegistration_gen (s : State) (p : Micros) (cb : Token) (rep : Bool) (i : Slot) :
    (storeRegistration s p cb rep i).gen = if rep then s.gen else nextGeneration s.gen := rfl
@[simp] theorem storeRegistration_cnt (s : State) (p : Micros) (cb : Token) (rep : Bool) (i : Slot) :
    (storeRegistration s p cb rep i).cnt = s.cnt := rfl
@[simp] theorem storeRegistration_arr (s : State) (p : Micros) (cb : Token) (rep : Bool) (i : Slot) :
    (storeRegistration s p cb rep i).arr = s.arr := rfl
@[simp] theorem storeRegistration_psc (s : State) (p : Micros) (cb : Token) (rep : Bool) (i : Slot) :
    (storeRegistration s p cb rep i).psc = s.psc := rfl
@[simp] theorem storeRegistration_cen (s : State) (p : Micros) (cb : Token) (rep : Bool) (i : Slot) :
    (storeRegistration s p cb rep i).cen = s.cen := rfl
@[simp] theorem storeRegistration_uif (s : State) (p : Micros) (cb : Token) (rep : Bool) (i : Slot) :
    (storeRegistration s p cb rep i).uif = s.uif := rfl
@[simp] theorem storeRegistration_uie (s : State) (p : Micros) (cb : Token) (rep : Bool) (i : Slot) :
    (storeRegistration s p cb rep i).uie = s.uie := rfl
@[simp] theorem storeRegistration_started (s : State) (p : Micros) (cb : Token) (rep : Bool) (i : Slot) :
    (storeRegistration s p cb rep i).started = s.started := rfl
@[simp] theorem storeRegistration_faulted (s : State) (p : Micros) (cb : Token) (rep : Bool) (i : Slot) :
    (storeRegistration s p cb rep i).faulted = s.faulted := rfl
@[simp] theorem storeRegistration_updActive (s : State) (p : Micros) (cb : Token) (rep : Bool) (i : Slot) :
    (storeRegistration s p cb rep i).updActive = s.updActive := rfl
@[simp] theorem storeRegistration_updSlot (s : State) (p : Micros) (cb : Token) (rep : Bool) (i : Slot) :
    (storeRegistration s p cb rep i).updSlot = s.updSlot := rfl
@[simp] theorem storeRegistration_platform (s : State) (p : Micros) (cb : Token) (rep : Bool) (i : Slot) :
    (storeRegistration s p cb rep i).platform = s.platform := rfl
@[simp] theorem storeRegistration_stimuli (s : State) (p : Micros) (cb : Token) (rep : Bool) (i : Slot) :
    (storeRegistration s p cb rep i).stimuli = s.stimuli := rfl
@[simp] theorem storeRegistration_outputs (s : State) (p : Micros) (cb : Token) (rep : Bool) (i : Slot) :
    (storeRegistration s p cb rep i).outputs = s.outputs := rfl
@[simp] theorem storeRegistration_g32 (s : State) (p : Micros) (cb : Token) (rep : Bool) (i : Slot) : (storeRegistration s p cb rep i).g32 = s.g32 := rfl

/-! ### raiseConfigFault -/

@[simp] theorem raiseConfigFault_tasks (s : State) : (raiseConfigFault s).tasks = s.tasks := rfl
@[simp] theorem raiseConfigFault_free (s : State) : (raiseConfigFault s).free = s.free := rfl
@[simp] theorem raiseConfigFault_ready (s : State) : (raiseConfigFault s).ready = s.ready := rfl
@[simp] theorem raiseConfigFault_sorted (s : State) :
    (raiseConfigFault s).sorted = s.sorted := rfl
@[simp] theorem raiseConfigFault_count (s : State) : (raiseConfigFault s).count = s.count := rfl
@[simp] theorem raiseConfigFault_g (s : State) : (raiseConfigFault s).g = s.g := rfl
@[simp] theorem raiseConfigFault_cur (s : State) : (raiseConfigFault s).cur = s.cur := rfl
@[simp] theorem raiseConfigFault_gen (s : State) : (raiseConfigFault s).gen = s.gen := rfl
@[simp] theorem raiseConfigFault_cnt (s : State) : (raiseConfigFault s).cnt = s.cnt := rfl
@[simp] theorem raiseConfigFault_arr (s : State) : (raiseConfigFault s).arr = s.arr := rfl
@[simp] theorem raiseConfigFault_psc (s : State) : (raiseConfigFault s).psc = s.psc := rfl
@[simp] theorem raiseConfigFault_cen (s : State) : (raiseConfigFault s).cen = s.cen := rfl
@[simp] theorem raiseConfigFault_uif (s : State) : (raiseConfigFault s).uif = s.uif := rfl
@[simp] theorem raiseConfigFault_uie (s : State) : (raiseConfigFault s).uie = s.uie := rfl
@[simp] theorem raiseConfigFault_started (s : State) :
    (raiseConfigFault s).started = s.started := rfl
@[simp] theorem raiseConfigFault_faulted (s : State) : (raiseConfigFault s).faulted = true := rfl
@[simp] theorem raiseConfigFault_updActive (s : State) :
    (raiseConfigFault s).updActive = s.updActive := rfl
@[simp] theorem raiseConfigFault_updSlot (s : State) :
    (raiseConfigFault s).updSlot = s.updSlot := rfl
@[simp] theorem raiseConfigFault_platform (s : State) :
    (raiseConfigFault s).platform = s.platform := rfl
@[simp] theorem raiseConfigFault_stimuli (s : State) :
    (raiseConfigFault s).stimuli = s.stimuli := rfl
@[simp] theorem raiseConfigFault_outputs (s : State) :
    (raiseConfigFault s).outputs = s.outputs ++ [.response ⟨.fault, 0#64⟩] := rfl
@[simp] theorem raiseConfigFault_record (s : State) (j : Slot) :
    (raiseConfigFault s).record j = s.record j := rfl
@[simp] theorem raiseConfigFault_g32 (s : State) : (raiseConfigFault s).g32 = s.g32 := rfl

/-! ### answerIllegal -/

@[simp] theorem answerIllegal_tasks (s : State) : (answerIllegal s).tasks = s.tasks := rfl
@[simp] theorem answerIllegal_free (s : State) : (answerIllegal s).free = s.free := rfl
@[simp] theorem answerIllegal_ready (s : State) : (answerIllegal s).ready = s.ready := rfl
@[simp] theorem answerIllegal_sorted (s : State) : (answerIllegal s).sorted = s.sorted := rfl
@[simp] theorem answerIllegal_count (s : State) : (answerIllegal s).count = s.count := rfl
@[simp] theorem answerIllegal_g (s : State) : (answerIllegal s).g = s.g := rfl
@[simp] theorem answerIllegal_cur (s : State) : (answerIllegal s).cur = s.cur := rfl
@[simp] theorem answerIllegal_gen (s : State) : (answerIllegal s).gen = s.gen := rfl
@[simp] theorem answerIllegal_cnt (s : State) : (answerIllegal s).cnt = s.cnt := rfl
@[simp] theorem answerIllegal_arr (s : State) : (answerIllegal s).arr = s.arr := rfl
@[simp] theorem answerIllegal_psc (s : State) : (answerIllegal s).psc = s.psc := rfl
@[simp] theorem answerIllegal_cen (s : State) : (answerIllegal s).cen = s.cen := rfl
@[simp] theorem answerIllegal_uif (s : State) : (answerIllegal s).uif = s.uif := rfl
@[simp] theorem answerIllegal_uie (s : State) : (answerIllegal s).uie = s.uie := rfl
@[simp] theorem answerIllegal_started (s : State) : (answerIllegal s).started = s.started := rfl
@[simp] theorem answerIllegal_faulted (s : State) : (answerIllegal s).faulted = s.faulted := rfl
@[simp] theorem answerIllegal_updActive (s : State) :
    (answerIllegal s).updActive = s.updActive := rfl
@[simp] theorem answerIllegal_updSlot (s : State) : (answerIllegal s).updSlot = s.updSlot := rfl
@[simp] theorem answerIllegal_platform (s : State) :
    (answerIllegal s).platform = s.platform := rfl
@[simp] theorem answerIllegal_stimuli (s : State) : (answerIllegal s).stimuli = s.stimuli := rfl
@[simp] theorem answerIllegal_outputs (s : State) :
    (answerIllegal s).outputs = s.outputs ++ [.response ⟨.illegal, 0#64⟩] := rfl
@[simp] theorem answerIllegal_record (s : State) (j : Slot) :
    (answerIllegal s).record j = s.record j := rfl
@[simp] theorem answerIllegal_g32 (s : State) : (answerIllegal s).g32 = s.g32 := rfl

/-! ### answerRefused -/

@[simp] theorem answerRefused_tasks (s : State) : (answerRefused s).tasks = s.tasks := rfl
@[simp] theorem answerRefused_free (s : State) : (answerRefused s).free = s.free := rfl
@[simp] theorem answerRefused_ready (s : State) : (answerRefused s).ready = s.ready := rfl
@[simp] theorem answerRefused_sorted (s : State) : (answerRefused s).sorted = s.sorted := rfl
@[simp] theorem answerRefused_count (s : State) : (answerRefused s).count = s.count := rfl
@[simp] theorem answerRefused_g (s : State) : (answerRefused s).g = s.g := rfl
@[simp] theorem answerRefused_cur (s : State) : (answerRefused s).cur = s.cur := rfl
@[simp] theorem answerRefused_gen (s : State) : (answerRefused s).gen = s.gen := rfl
@[simp] theorem answerRefused_cnt (s : State) : (answerRefused s).cnt = s.cnt := rfl
@[simp] theorem answerRefused_arr (s : State) : (answerRefused s).arr = s.arr := rfl
@[simp] theorem answerRefused_psc (s : State) : (answerRefused s).psc = s.psc := rfl
@[simp] theorem answerRefused_cen (s : State) : (answerRefused s).cen = s.cen := rfl
@[simp] theorem answerRefused_uif (s : State) : (answerRefused s).uif = s.uif := rfl
@[simp] theorem answerRefused_uie (s : State) : (answerRefused s).uie = s.uie := rfl
@[simp] theorem answerRefused_started (s : State) : (answerRefused s).started = s.started := rfl
@[simp] theorem answerRefused_faulted (s : State) : (answerRefused s).faulted = s.faulted := rfl
@[simp] theorem answerRefused_updActive (s : State) :
    (answerRefused s).updActive = s.updActive := rfl
@[simp] theorem answerRefused_updSlot (s : State) : (answerRefused s).updSlot = s.updSlot := rfl
@[simp] theorem answerRefused_platform (s : State) :
    (answerRefused s).platform = s.platform := rfl
@[simp] theorem answerRefused_stimuli (s : State) : (answerRefused s).stimuli = s.stimuli := rfl
@[simp] theorem answerRefused_outputs (s : State) :
    (answerRefused s).outputs = s.outputs ++ [.response ⟨.refused, 0#64⟩] := rfl
@[simp] theorem answerRefused_record (s : State) (j : Slot) :
    (answerRefused s).record j = s.record j := rfl
@[simp] theorem answerRefused_g32 (s : State) : (answerRefused s).g32 = s.g32 := rfl

/-! ### Records -/

@[simp] theorem State.setRecord_record_self (s : State) (i : Slot) (r : TaskRecord) :
    (s.setRecord i r).record i = r := by
  simp [State.record]

theorem State.setRecord_record_of_ne (s : State) {i j : Slot} (r : TaskRecord) (h : i ≠ j) :
    (s.setRecord i r).record j = s.record j := by
  have : i.toNat ≠ j.toNat := fun e => h (BitVec.eq_of_toNat_eq e)
  simp [State.record, this]

theorem State.setRecord_record (s : State) (i j : Slot) (r : TaskRecord) :
    (s.setRecord i r).record j = if i = j then r else s.record j := by
  by_cases h : i = j
  · subst h; simp
  · simp [h, State.setRecord_record_of_ne s r h]

@[simp] theorem storeRegistration_record_self (s : State) (p : Micros) (cb : Token) (rep : Bool)
    (i : Slot) : (storeRegistration s p cb rep i).record i = newRecord s p cb rep i :=
  State.setRecord_record_self s i _

theorem storeRegistration_record_of_ne (s : State) (p : Micros) (cb : Token) (rep : Bool)
    {i j : Slot} (h : i ≠ j) : (storeRegistration s p cb rep i).record j = s.record j :=
  State.setRecord_record_of_ne s _ h

end Sys2Proof.Machine
end

