-- ==== Sys2Proof/Laws/Primitives.lean ====
section
/-! SUPPORT. The laws of the primitives (00_scope.md R8 to R11): bits of a bitmap after a set and a
clear, the bit scan, the nibbles of the packed index after an insertion and a removal, membership
in the index. -/

namespace Sys2Proof.Machine

/-! ### Bitmaps -/

theorem slot_toNat_ne {i j : Slot} (h : i ≠ j) : i.toNat ≠ j.toNat :=
  fun e => h (BitVec.eq_of_toNat_eq e)

theorem slot_toNat_lt (i : Slot) : i.toNat < 16 := i.isLt

@[simp] theorem bit_setBit (v : Bitmap) (i j : Slot) :
    bit (setBit v i) j = (bit v j || decide (i = j)) := by
  have hi := slot_toNat_lt i
  have hj := slot_toNat_lt j
  by_cases h : i = j
  · subst h
    simp [bit, setBit, show i.toNat < 32 by omega]
  · have hn := slot_toNat_ne h
    simp only [bit, setBit, BitVec.getLsbD_or, BitVec.getLsbD_shiftLeft, h, decide_false,
      Bool.or_false, Bool.or_eq_left_iff_imp]
    intro hh
    simp [BitVec.getLsbD_one] at hh
    omega

@[simp] theorem bit_clearBit (v : Bitmap) (i j : Slot) :
    bit (clearBit v i) j = (bit v j && !decide (i = j)) := by
  have hi := slot_toNat_lt i
  have hj := slot_toNat_lt j
  by_cases h : i = j
  · subst h
    simp [bit, clearBit, show i.toNat < 32 by omega]
  · have hn := slot_toNat_ne h
    simp only [bit, clearBit, BitVec.getLsbD_and, BitVec.getLsbD_not, BitVec.getLsbD_shiftLeft, h,
      decide_false, Bool.not_false, Bool.and_true]
    by_cases hb : v.getLsbD j.toNat = true
    · simp [hb, BitVec.getLsbD_one, show j.toNat < 32 by omega]
      omega
    · simp [Bool.not_eq_true] at hb; simp [hb]

/-! ### Bit scan -/

theorem ctz_eq_none_iff {n : Nat} (v : BitVec n) : ctz v = none ↔ v = 0#n := by
  simp only [ctz, List.find?_eq_none, List.mem_range, Bool.not_eq_true]
  constructor
  · intro h
    apply BitVec.eq_of_getLsbD_eq
    intro i hi
    simp [h i hi]
  · rintro rfl i _
    simp

theorem ctz_eq_some_iff {n : Nat} (v : BitVec n) (k : Nat) :
    ctz v = some k ↔ v.getLsbD k = true ∧ k < n ∧ ∀ j < k, v.getLsbD j = false := by
  simp [ctz, List.find?_range_eq_some]

@[simp] theorem slotOfIndex_of_lt {k : Nat} (h : k < 16) :
    slotOfIndex k = .ok (BitVec.ofNat 4 k) := by
  simp [slotOfIndex, Config.kMaxTasks, h]

/-- A slot number found by a bit scan of a bitmap whose high half is zero. -/
theorem slotOfIndex_ctz {v : Bitmap} (hv : v.extractLsb' 16 16 = 0#16) {k : Nat}
    (h : ctz v = some k) : slotOfIndex k = .ok (BitVec.ofNat 4 k) := by
  obtain ⟨hb, hk, -⟩ := (ctz_eq_some_iff v k).1 h
  apply slotOfIndex_of_lt
  by_contra hc
  have := congrArg (fun x => x.getLsbD (k - 16)) hv
  simp [show k - 16 < 16 by omega, show 16 + (k - 16) = k by omega, hb] at this

/-! ### Nibbles -/

theorem getLsbD_nib (v : Packed) (p j : Nat) :
    (nib v p).getLsbD j = (decide (j < 4) && v.getLsbD (4 * p + j)) := by
  simp [nib, BitVec.getLsbD_extractLsb']

theorem lowmask_eq (p : Nat) (h : p < 16) : (lowmask p).toNat = 2 ^ (4 * p) - 1 := by
  interval_cases p <;> rfl

theorem getLsbD_lowmask (p j : Nat) (h : p < 16) :
    (lowmask p).getLsbD j = decide (j < 4 * p) := by
  rw [← BitVec.testBit_toNat, lowmask_eq p h, Nat.testBit_two_pow_sub_one]

theorem getLsbD_insertNibble (v : Packed) (p : Nat) (i : Slot) (k : Nat) (h : p < 16) (hk : k < 64) :
    (insertNibble v p i).getLsbD k =
      if k < 4 * p then v.getLsbD k
      else if k < 4 * p + 4 then i.getLsbD (k - 4 * p)
      else v.getLsbD (k - 4) := by
  simp only [insertNibble, BitVec.getLsbD_or, BitVec.getLsbD_and, BitVec.getLsbD_shiftLeft,
    BitVec.getLsbD_not, BitVec.getLsbD_setWidth, getLsbD_lowmask _ _ h]
  by_cases h1 : k < 4 * p
  · have : decide (k - 4 < 4 * p) = true := by simp; omega
    simp [h1, this]
  · by_cases h2 : k < 4 * p + 4
    · have h5 : i.getLsbD (k - 4 * p) = i.getLsbD (k - 4 * p) := rfl
      by_cases h6 : k < 4
      · have : p = 0 := by omega
        subst this
        simp [h6, hk]
      · have : decide (k - 4 < 4 * p) = true := by simp; omega
        simp [h1, h2, this, hk, show k - 4 * p < 64 by omega]
    · have h7 : i.getLsbD (k - 4 * p) = false := BitVec.getLsbD_of_ge _ _ (by omega)
      have h8 : ¬ k - 4 < 4 * p := by omega
      simp [h1, h2, h7, h8, hk, show ¬ k < 4 by omega, show k - 4 < 64 by omega]

/-- The nibbles after an insertion: below as before, the slot at the position, above one up. -/
theorem nib_insertNibble (v : Packed) (p q : Nat) (i : Slot) (h : p < 16) (hq : q < 16) :
    nib (insertNibble v p i) q = if q < p then nib v q else if q = p then i else nib v (q - 1) := by
  apply BitVec.eq_of_getLsbD_eq
  intro j hj
  rw [getLsbD_nib, getLsbD_insertNibble _ _ _ _ h (by omega)]
  by_cases h1 : q < p
  · rw [if_pos h1, if_pos (by omega), getLsbD_nib]
  · by_cases h2 : q = p
    · subst h2; simp [hj]
    · simp only [h1, h2, if_false, hj, decide_true, Bool.true_and, getLsbD_nib,
        show ¬ 4 * q + j < 4 * p by omega, show ¬ 4 * q + j < 4 * p + 4 by omega]
      congr 1; omega

theorem getLsbD_removeNibble (v : Packed) (p k : Nat) (h : p < 16) :
    (removeNibble v p).getLsbD k = if k < 4 * p then v.getLsbD k else v.getLsbD (k + 4) := by
  simp only [removeNibble, BitVec.getLsbD_or, BitVec.getLsbD_and, BitVec.getLsbD_ushiftRight,
    BitVec.getLsbD_not, getLsbD_lowmask _ _ h]
  by_cases h1 : k < 4 * p
  · simp [h1]
  · by_cases h2 : k < 64
    · simp [h1, h2, Nat.add_comm]
    · simp [h1, h2, BitVec.getLsbD_of_ge v (k + 4) (by omega)]

/-- The nibbles after a removal: below as before, above one down. -/
theorem nib_removeNibble (v : Packed) (p q : Nat) (h : p < 16) :
    nib (removeNibble v p) q = if q < p then nib v q else nib v (q + 1) := by
  apply BitVec.eq_of_getLsbD_eq
  intro j hj
  rw [getLsbD_nib, getLsbD_removeNibble _ _ _ h]
  by_cases h1 : q < p
  · rw [if_pos h1, if_pos (by omega), getLsbD_nib]
  · simp only [h1, if_false, hj, decide_true, Bool.true_and, getLsbD_nib,
      show ¬ 4 * q + j < 4 * p by omega]
    congr 1; omega

/-- The nibbles after a pop: every one down. -/
theorem nib_pop (v : Packed) (q : Nat) : nib (v >>> 4) q = nib v (q + 1) := by
  apply BitVec.eq_of_getLsbD_eq
  intro j hj
  simp only [getLsbD_nib, hj, decide_true, Bool.true_and, BitVec.getLsbD_ushiftRight]
  congr 1; omega

/-- A nibble beyond the sixteenth is 0. -/
theorem nib_of_ge (v : Packed) (p : Nat) (h : 16 ≤ p) : nib v p = 0#4 := by
  apply BitVec.eq_of_getLsbD_eq
  intro j hj
  simp [getLsbD_nib, BitVec.getLsbD_of_ge v (4 * p + j) (by omega)]

/-- Two packed indices with the same sixteen nibbles are equal. -/
theorem packed_ext {v w : Packed} (h : ∀ p < 16, nib v p = nib w p) : v = w := by
  apply BitVec.eq_of_getLsbD_eq
  intro k hk
  have := congrArg (fun x => x.getLsbD (k % 4)) (h (k / 4) (by omega))
  simpa only [getLsbD_nib, show k % 4 < 4 by omega, show 4 * (k / 4) + k % 4 = k by omega,
    decide_true, Bool.true_and] using this

/-! ### Membership in the index -/

theorem isScheduled_iff (s : State) (i : Slot) :
    s.isScheduled i = true ↔ ∃ p < s.count.toNat, nib s.sorted p = i := by
  simp [State.isScheduled]

theorem isScheduled_nib (s : State) {p : Nat} (h : p < s.count.toNat) :
    s.isScheduled (nib s.sorted p) = true := (isScheduled_iff s _).2 ⟨p, h, rfl⟩

theorem count_ne_zero_iff (s : State) : s.count ≠ 0#5 ↔ 0 < s.count.toNat := by
  rw [Nat.pos_iff_ne_zero, ne_eq, ne_eq, not_iff_not]
  exact ⟨fun h => by simp [h], fun h => BitVec.eq_of_toNat_eq (by simpa using h)⟩

theorem count_add_one (c : BitVec 5) (h : c.toNat < 16) : (c + 1#5).toNat = c.toNat + 1 := by
  simp [BitVec.toNat_add]; omega

theorem count_sub_one (c : BitVec 5) (h : 0 < c.toNat) : (c - 1#5).toNat = c.toNat - 1 := by
  have := c.isLt
  simp [BitVec.toNat_sub]; omega

/-! ### Signed difference -/

theorem sdiff_self (a : Micros) : sdiff a a = 0 := by simp [sdiff]

/-- A deadline a period below 2^31 ahead is that many ticks ahead, across the wrap as well. -/
theorem sdiff_deadlineAfter (now p : Micros) (h : p.toNat < 2 ^ 31) :
    sdiff (deadlineAfter now p) now = p.toNat := by
  have : now + p - now = p := by rw [BitVec.add_comm, BitVec.add_sub_cancel]
  simp only [sdiff, deadlineAfter, this]
  exact BitVec.toInt_eq_toNat_of_lt (by omega)

end Sys2Proof.Machine
end

