-- ==== Sys2Proof/Laws/Ops.lean ====
section
/-! SUPPORT. For each shared operation one lemma that says everything it can do; later proofs cite
these instead of unfolding the operation. -/

namespace Sys2Proof.Machine

/-! ### Slot allocator -/

theorem bit_ofNat {v : Bitmap} {k : Nat} (h : k < 16) : bit v (BitVec.ofNat 4 k) = v.getLsbD k := by
  simp [bit, Nat.mod_eq_of_lt h]

/-- `allocate_slot` on an exhausted pool. -/
theorem allocateSlot_exhausted {s : State} (h : s.free = 0#32) : allocateSlot s = .ok none := by
  simp [allocateSlot, (ctz_eq_none_iff s.free).2 h]

/-- `allocate_slot` with a free slot: the lowest one is taken and nothing else is written. -/
theorem allocateSlot_lowest {s : State} (hh : s.free.extractLsb' 16 16 = 0#16) (h : s.free ≠ 0#32) :
    ∃ i, s.lowestFree i ∧ allocateSlot s = .ok (some (i, { s with free := clearBit s.free i })) := by
  obtain ⟨k, hk⟩ := Option.ne_none_iff_exists'.1 (mt (ctz_eq_none_iff s.free).1 h)
  have hs := slotOfIndex_ctz hh hk
  obtain ⟨hb, hlt, hlow⟩ := (ctz_eq_some_iff _ _).1 hk
  have h16 : k < 16 := by
    by_contra hc
    rw [slotOfIndex, if_neg (show ¬ k < Config.kMaxTasks from hc)] at hs
    cases hs
  refine ⟨BitVec.ofNat 4 k, ⟨by rw [State.isFree, bit_ofNat h16]; exact hb, fun j hj => ?_⟩, ?_⟩
  · exact hlow _ (by simpa [Nat.mod_eq_of_lt h16] using hj)
  · simp [allocateSlot, hk, hs]

/-- What `allocate_slot` answers when it does not fault. -/
theorem allocateSlot_cases {s : State} {r : Option (Slot × State)} (h : allocateSlot s = .ok r) :
    (s.free = 0#32 ∧ r = none) ∨
      ∃ i, s.isFree i = true ∧ r = some (i, { s with free := clearBit s.free i }) := by
  unfold allocateSlot at h
  split at h
  · rename_i hc
    exact .inl ⟨(ctz_eq_none_iff _).1 hc, by cases h; rfl⟩
  · rename_i k hk
    obtain ⟨hb, -, -⟩ := (ctz_eq_some_iff _ _).1 hk
    unfold slotOfIndex at h
    split at h <;> rename_i hs
    · cases h
    · split at hs
      · rename_i hlt
        cases hs
        cases h
        exact .inr ⟨_, by rw [State.isFree, bit_ofNat hlt]; exact hb, rfl⟩
      · cases hs

/-! ### Sorted index -/

/-- The bisection stays within its range. -/
theorem searchLoop_range (s : State) (new : Micros) :
    ∀ fuel left right, left ≤ right →
      left ≤ searchLoop s new fuel left right ∧ searchLoop s new fuel left right ≤ right
  | 0, left, right, h => by simp [searchLoop, h]
  | fuel + 1, left, right, h => by
    rw [searchLoop]
    split
    · split
      · have := searchLoop_range s new fuel (left + (right - left) / 2 + 1) right (by omega)
        omega
      · have := searchLoop_range s new fuel left (left + (right - left) / 2) (by omega)
        omega
    · omega

/-- `search_position` answers a position from 0 to `count`. -/
theorem searchPosition_le (s : State) (new : Micros) : searchPosition s new ≤ s.count.toNat :=
  (searchLoop_range s new 5 0 s.count.toNat (by omega)).2

/-- The bisection, given enough iterations, stops where the test changes: the candidate before the
result passes it, the candidate at the result fails it. -/
theorem searchLoop_boundary (s : State) (new : Micros) :
    ∀ fuel left right, left ≤ right → right - left < 2 ^ fuel →
      (searchLoop s new fuel left right = left ∨
        sdiff (deadlineAt s (searchLoop s new fuel left right - 1)) new ≤ 0) ∧
      (searchLoop s new fuel left right = right ∨
        0 < sdiff (deadlineAt s (searchLoop s new fuel left right)) new)
  | 0, left, right, h, hf => by simp [searchLoop]; omega
  | fuel + 1, left, right, h, hf => by
    rw [searchLoop]
    split
    · split
      · rename_i hd
        have ih := searchLoop_boundary s new fuel (left + (right - left) / 2 + 1) right (by omega)
          (by omega)
        refine ⟨.inr ?_, ih.2⟩
        rcases ih.1 with e | e
        · rw [e]; simpa using hd
        · exact e
      · rename_i hd
        have ih := searchLoop_boundary s new fuel left (left + (right - left) / 2) (by omega)
          (by omega)
        refine ⟨ih.1, ?_⟩
        rcases ih.2 with e | e
        · right; rw [e]; omega
        · exact .inr e
    · have : left = right := by omega
      simp [this]

/-- Five iterations suffice for every value of `count` (R142). -/
theorem searchPosition_boundary (s : State) (new : Micros) :
    (searchPosition s new = 0 ∨ sdiff (deadlineAt s (searchPosition s new - 1)) new ≤ 0) ∧
      (searchPosition s new = s.count.toNat ∨ 0 < sdiff (deadlineAt s (searchPosition s new)) new) :=
  searchLoop_boundary s new 5 0 s.count.toNat (by omega) (by have := s.count.isLt; omega)

/-- `insert_sorted` on an index that is not full. -/
theorem insertSorted_of_lt {s : State} (i : Slot) (h : s.count.toNat < 16) :
    insertSorted i s = .ok { s with
      sorted := insertNibble s.sorted (searchPosition s (s.record i).nextFireUs) i
      count := s.count + 1#5 } := by
  rw [insertSorted, if_pos (by simpa [Config.kMaxTasks] using h)]

/-- What `insert_sorted` answers when it does not fault. -/
theorem insertSorted_cases {s t : State} {i : Slot} (h : insertSorted i s = .ok t) :
    s.count.toNat < 16 ∧ t = { s with
      sorted := insertNibble s.sorted (searchPosition s (s.record i).nextFireUs) i
      count := s.count + 1#5 } := by
  unfold insertSorted at h
  split at h
  · rename_i hc
    cases h
    exact ⟨by simpa [Config.kMaxTasks] using hc, rfl⟩
  · cases h

theorem findPosition_eq_none_iff (v : Packed) (n : Nat) (i : Slot) :
    findPosition v n i = none ↔ ∀ p < n, nib v p ≠ i := by
  simp [findPosition]

theorem findPosition_eq_some_iff (v : Packed) (n : Nat) (i : Slot) (p : Nat) :
    findPosition v n i = some p ↔ nib v p = i ∧ p < n ∧ ∀ q < p, nib v q ≠ i := by
  simp [findPosition, List.find?_range_eq_some]

/-- What `remove_sorted` does: nothing when the slot is absent, else it closes up its lowest
position. -/
theorem removeSorted_cases (i : Slot) (s : State) :
    (s.isScheduled i = false ∧ removeSorted i s = s) ∨
      ∃ p < s.count.toNat, nib s.sorted p = i ∧ (∀ q < p, nib s.sorted q ≠ i) ∧
        removeSorted i s =
          { s with sorted := removeNibble s.sorted p, count := s.count - 1#5 } := by
  cases hf : findPosition s.sorted s.count.toNat i with
  | none =>
    refine .inl ⟨?_, by simp [removeSorted, hf]⟩
    have := (findPosition_eq_none_iff _ _ _).1 hf
    rw [← Bool.not_eq_true, isScheduled_iff]
    rintro ⟨p, hp, e⟩
    exact this p hp e
  | some p =>
    obtain ⟨h1, h2, h3⟩ := (findPosition_eq_some_iff _ _ _ _).1 hf
    exact .inr ⟨p, h2, h1, h3, by simp [removeSorted, hf]⟩

theorem frontId_of_ne {s : State} (h : s.count ≠ 0#5) : frontId s = .ok (nib s.sorted 0) := by
  simp [frontId, h]

theorem popFront_of_ne {s : State} (h : s.count ≠ 0#5) :
    popFront s = .ok { s with sorted := s.sorted >>> 4, count := s.count - 1#5 } := by
  simp [popFront, h]

/-! ### Intervals and the reload controller -/

theorem intervalFor_of_le {d : Int} (h : d ≤ 1) : intervalFor d = 1#32 := by simp [intervalFor, h]

/-- The interval of a distance that a signed 32-bit value can have, as a number. -/
theorem intervalFor_toNat {d : Int} (h : d < 2 ^ 31) : ((intervalFor d).toNat : Int) = max 1 d := by
  unfold intervalFor
  split
  · simp; omega
  · rw [BitVec.toNat_ofInt]; omega

theorem sdiff_lt (a b : Micros) : sdiff a b < 2 ^ 31 := by
  have := BitVec.toInt_lt (x := a - b)
  simpa [sdiff] using this

theorem intervalFor_sdiff_pos (a b : Micros) : 1 ≤ (intervalFor (sdiff a b)).toNat := by
  have := intervalFor_toNat (sdiff_lt a b); omega

theorem intervalFor_sdiff_lt (a b : Micros) : (intervalFor (sdiff a b)).toNat < 2 ^ 31 := by
  have := intervalFor_toNat (sdiff_lt a b)
  have := sdiff_lt a b
  omega

theorem intervalFor_sdiff_ne (a b : Micros) : intervalFor (sdiff a b) ≠ 0#32 := by
  intro h
  have := intervalFor_sdiff_pos a b
  rw [h] at this
  simp at this

/-- One pass of the reload controller with something scheduled. -/
theorem armPass_of_ne {s : State} (h : s.count ≠ 0#5) :
    armPass s = .ok { s with cur := s.frontInterval, arr := s.frontInterval - 1#32 } := by
  have hi : (s.record (nib s.sorted 0)).nextFireUs = deadlineAt s 0 := rfl
  simp only [armPass, frontId_of_ne h, hi, configureTimerForInterval, State.frontInterval,
    if_neg (intervalFor_sdiff_ne (deadlineAt s 0) s.g32)]

theorem scheduleNextInterval_idle {s : State} (h : s.count = 0#5) :
    scheduleNextInterval s = .ok { s with cen := false, cur := 0#32 } := by
  simp [scheduleNextInterval, h, globalTimerDisable]

theorem scheduleNextInterval_noOverrun {s : State} (h : s.count ≠ 0#5)
    (hc : s.cnt ≤ s.frontInterval - 1#32) :
    scheduleNextInterval s =
      .ok { s with cur := s.frontInterval, arr := s.frontInterval - 1#32, cen := true } := by
  simp only [scheduleNextInterval, if_neg h, armPass_of_ne h, globalTimerEnable, if_pos hc]

theorem scheduleNextInterval_overrun {s : State} (h : s.count ≠ 0#5)
    (hc : s.frontInterval - 1#32 < s.cnt) :
    scheduleNextInterval s =
      .ok { forceUpdateEvent s with
        cur := (forceUpdateEvent s).frontInterval
        arr := (forceUpdateEvent s).frontInterval - 1#32
        cen := true } := by
  have hn : ¬ s.cnt ≤ s.frontInterval - 1#32 := BitVec.not_le.2 hc
  have h2 : (forceUpdateEvent { s with
      cur := s.frontInterval, arr := s.frontInterval - 1#32 }).count ≠ 0#5 := h
  simp only [scheduleNextInterval, if_neg h, armPass_of_ne h, if_neg hn, armPass_of_ne h2]
  rfl

/-- `schedule_next_interval` never faults; it writes `cur`, `ARR`, `CNT`, `G` and `CEN` only, and
the timer is reprogrammed as R213 says. -/
theorem scheduleNextInterval_spec (s : State) :
    ∃ t, scheduleNextInterval s = .ok t ∧ TimerReprogrammed s t ∧
      t = { s with cur := t.cur, arr := t.arr, cnt := t.cnt, g := t.g, cen := t.cen } := by
  by_cases h : s.count = 0#5
  · exact ⟨_, scheduleNextInterval_idle h, by simp [TimerReprogrammed, h], rfl⟩
  · by_cases hc : s.cnt ≤ s.frontInterval - 1#32
    · refine ⟨_, scheduleNextInterval_noOverrun h hc, ?_, rfl⟩
      rw [TimerReprogrammed, if_neg h]
      exact ⟨rfl, rfl, rfl, .inl ⟨hc, rfl, rfl⟩⟩
    · refine ⟨_, scheduleNextInterval_overrun h (BitVec.not_le.1 hc), ?_, rfl⟩
      rw [TimerReprogrammed, if_neg (by exact h)]
      exact ⟨rfl, rfl, rfl, .inr ⟨BitVec.not_le.1 hc, rfl, rfl⟩⟩

/-- The same, read from an answer. -/
theorem scheduleNextInterval_cases {s t : State} (h : scheduleNextInterval s = .ok t) :
    TimerReprogrammed s t ∧
      t = { s with cur := t.cur, arr := t.arr, cnt := t.cnt, g := t.g, cen := t.cen } := by
  obtain ⟨t', h1, h2, h3⟩ := scheduleNextInterval_spec s
  rw [h] at h1
  cases h1
  exact ⟨h2, h3⟩

/-! ### Registration and removal -/

/-- What `register_common` answers when it does not fault. -/
theorem registerCommon_cases {s t : State} {p : Micros} {cb : Token} {rep : Bool} {id : Handle}
    (h : registerCommon p cb rep s = .ok (id, t)) :
    ((registrationValid p cb = false ∨ s.free = 0#32) ∧ id = Config.invalidId ∧ t = s) ∨
      ∃ i s2, registrationValid p cb = true ∧ s.isFree i = true ∧
        insertSorted i (storeRegistration { s with free := clearBit s.free i }
          (clampPeriod p) cb rep i) = .ok s2 ∧
        scheduleNextInterval s2 = .ok t ∧ id = (t.record i).id := by
  unfold registerCommon at h
  split at h
  · rename_i hv
    split at h
    · cases h
    · rename_i ha
      rcases allocateSlot_cases ha with ⟨h0, -⟩ | ⟨i, -, e⟩
      · cases h; exact .inl ⟨.inr h0, rfl, rfl⟩
      · cases e
    · rename_i i s1 ha
      rcases allocateSlot_cases ha with ⟨-, e⟩ | ⟨j, hj, e⟩
      · cases e
      · cases e
        split at h
        · cases h
        · rename_i s2 hi
          split at h
          · cases h
          · rename_i s3 hs
            cases h
            exact .inr ⟨_, s2, hv, hj, hi, hs, rfl⟩
  · rename_i hv
    cases h
    exact .inl ⟨.inl (by simpa using hv), rfl, rfl⟩

/-- `register_common` with invalid arguments or an exhausted pool changes nothing. -/
theorem registerCommon_failure {s : State} {p : Micros} {cb : Token} {rep : Bool}
    (h : registrationValid p cb = false ∨ s.free = 0#32) :
    registerCommon p cb rep s = .ok (Config.invalidId, s) := by
  unfold registerCommon
  cases hv : registrationValid p cb with
  | false => simp
  | true => simp [allocateSlot_exhausted (h.resolve_left (by simp [hv]))]

/-- `remove_common` never faults. -/
theorem removeCommon_spec (i : Slot) (s : State) :
    ∃ t, removeCommon i s = .ok t ∧ TimerReprogrammed (releaseSlot i (removeSorted i s)) t ∧
      t = { releaseSlot i (removeSorted i s) with
        cur := t.cur, arr := t.arr, cnt := t.cnt, g := t.g, cen := t.cen } :=
  scheduleNextInterval_spec _

/-! ### Firing -/

theorem frontDue_of_zero {s : State} (h : s.count = 0#5) : frontDue s = .ok false := by
  simp [frontDue, h]

theorem frontDue_of_ne {s : State} (h : s.count ≠ 0#5) :
    frontDue s = .ok (decide (sdiff (deadlineAt s 0) s.g32 ≤ 0)) := by
  simp only [frontDue, if_neg h, frontId_of_ne h]
  rfl

/-- The state after the front has been popped and marked ready. -/
theorem fireFront_oneShot {s : State} (h : s.count ≠ 0#5)
    (hr : (s.record (nib s.sorted 0)).repeating = false) :
    fireFront s = .ok { s with
      sorted := s.sorted >>> 4, count := s.count - 1#5,
      ready := setBit s.ready (nib s.sorted 0) } := by
  have : ∀ v w x, ({ s with sorted := v, count := w, ready := x } : State).record
    (nib s.sorted 0) = s.record (nib s.sorted 0) := fun _ _ _ => rfl
  simp [fireFront, frontId_of_ne h, popFront_of_ne h, this, hr]

/-- One iteration on a periodic front: popped, marked ready, re-armed from the current tick and
inserted again. -/
theorem fireFront_periodic {s : State} (h : s.count ≠ 0#5)
    (hr : (s.record (nib s.sorted 0)).repeating = true) :
    fireFront s = insertSorted (nib s.sorted 0)
      (({ s with
          sorted := s.sorted >>> 4, count := s.count - 1#5,
          ready := setBit s.ready (nib s.sorted 0) } : State).setRecord (nib s.sorted 0)
        { s.record (nib s.sorted 0) with
          nextFireUs := deadlineAfter s.g32 (s.record (nib s.sorted 0)).periodUs }) := by
  have : ∀ v w x, ({ s with sorted := v, count := w, ready := x } : State).record
    (nib s.sorted 0) = s.record (nib s.sorted 0) := fun _ _ _ => rfl
  have hg : ∀ v w x, ({ s with sorted := v, count := w, ready := x } : State).g32 = s.g32 :=
    fun _ _ _ => rfl
  simp [fireFront, frontId_of_ne h, popFront_of_ne h, this, hg, hr]

theorem fireLoop_done {s : State} (fuel : Nat) (h : frontDue s = .ok false) :
    fireLoop fuel s = .ok s := by
  unfold fireLoop
  simp [h]

theorem fireLoop_more {s : State} (fuel : Nat) (h : frontDue s = .ok true) :
    fireLoop (fuel + 1) s = (fireFront s).bind (fireLoop fuel) := by
  rw [fireLoop]
  simp only [h]
  cases fireFront s <;> rfl

/-- The induction that every fact about the firing loop goes through: what one iteration keeps,
the loop keeps, and it ends with nothing due at the front. -/
theorem fireLoop_induction {P : State → Prop}
    (hstep : ∀ s t, P s → frontDue s = .ok true → fireFront s = .ok t → P t) :
    ∀ fuel s t, P s → fireLoop fuel s = .ok t → P t ∧ frontDue t = .ok false := by
  intro fuel
  induction fuel with
  | zero =>
    intro s t hp h
    unfold fireLoop at h
    split at h
    · cases h
    · rename_i hd; cases h; exact ⟨hp, hd⟩
    · cases h
  | succ n ih =>
    intro s t hp h
    unfold fireLoop at h
    split at h
    · cases h
    · rename_i hd; cases h; exact ⟨hp, hd⟩
    · rename_i hd
      simp only at h
      split at h
      · cases h
      · rename_i s1 hs
        exact ih s1 t (hstep s s1 hp hd hs) h

/-! ### Drain -/

theorem drainStep_empty {s : State} (h : s.ready = 0#32) :
    drainStep s = .ok ({ s with updActive := false }.respond .ok 0#64) := by
  simp [drainStep, (ctz_eq_none_iff s.ready).2 h]

/-- A drain step with something ready dispatches the lowest ready slot. -/
theorem drainStep_lowest {s : State} (hh : s.ready.extractLsb' 16 16 = 0#16) (h : s.ready ≠ 0#32) :
    ∃ i, s.lowestReady i ∧ drainStep s =
      .ok ({ s with ready := clearBit s.ready i, updSlot := i, updActive := true }.emit
        (.dispatch (s.record i).callback i)) := by
  obtain ⟨k, hk⟩ := Option.ne_none_iff_exists'.1 (mt (ctz_eq_none_iff s.ready).1 h)
  have hs := slotOfIndex_ctz hh hk
  obtain ⟨hb, hlt, hlow⟩ := (ctz_eq_some_iff _ _).1 hk
  have h16 : k < 16 := by
    by_contra hc
    rw [slotOfIndex, if_neg (show ¬ k < Config.kMaxTasks from hc)] at hs
    cases hs
  refine ⟨BitVec.ofNat 4 k, ⟨by rw [State.isReady, bit_ofNat h16]; exact hb, fun j hj => ?_⟩, ?_⟩
  · exact hlow _ (by simpa [Nat.mod_eq_of_lt h16] using hj)
  · simp [drainStep, hk, hs]

/-- What a drain step answers when it does not fault. -/
theorem drainStep_cases {s t : State} (h : drainStep s = .ok t) :
    (s.ready = 0#32 ∧ t = { s with updActive := false }.respond .ok 0#64) ∨
      ∃ i, s.isReady i = true ∧
        t = { s with ready := clearBit s.ready i, updSlot := i, updActive := true }.emit
          (.dispatch (s.record i).callback i) := by
  unfold drainStep at h
  split at h
  · rename_i hc
    cases h
    exact .inl ⟨(ctz_eq_none_iff _).1 hc, rfl⟩
  · rename_i k hk
    obtain ⟨hb, -, -⟩ := (ctz_eq_some_iff _ _).1 hk
    unfold slotOfIndex at h
    split at h <;> rename_i hs
    · cases h
    · split at hs
      · rename_i hlt
        cases hs
        cases h
        exact .inr ⟨_, by rw [State.isReady, bit_ofNat hlt]; exact hb, rfl⟩
      · cases hs

/-- The end of a callback changes the two bitmaps at most. -/
theorem finishCallback_cases (s : State) :
    ((s.record s.updSlot).repeating = true ∧ finishCallback s = s) ∨
      ((s.record s.updSlot).repeating = false ∧ finishCallback s = releaseSlot s.updSlot s) := by
  unfold finishCallback
  cases h : (s.record s.updSlot).repeating <;> simp

/-! ### Outcomes -/

theorem outcome_eq_next {r : Except Fault State} {t : State} :
    outcome r = .next t ↔ r = .ok t := by
  cases r <;> simp [outcome]

/-- What a host command answers. -/
theorem hostCommand_next {c : CommandClass} {body : State → Except Fault State} {s t : State}
    (h : hostCommand c body s = .next t) :
    (s.gateAccepts c = true ∧ body s = .ok t) ∨ (s.gateAccepts c = false ∧ t = answerRefused s) := by
  unfold hostCommand at h
  split at h
  · rename_i hg
    exact .inl ⟨hg, outcome_eq_next.1 h⟩
  · rename_i hg
    cases h
    exact .inr ⟨by simpa using hg, rfl⟩

theorem hostCommand_accepted {c : CommandClass} {body : State → Except Fault State} {s : State}
    (h : s.gateAccepts c = true) : hostCommand c body s = outcome (body s) := by
  simp [hostCommand, h]

theorem hostCommand_refused {c : CommandClass} {body : State → Except Fault State} {s : State}
    (h : s.gateAccepts c = false) : hostCommand c body s = .next (answerRefused s) := by
  simp [hostCommand, h]

/-- What an environment event answers. -/
theorem environmentEvent_next {b : Bool} {r : Refusal} {body : State → Except Fault State}
    {s t : State} (h : environmentEvent b r body s = .next t) : b = true ∧ body s = .ok t := by
  unfold environmentEvent at h
  split at h
  · rename_i hb
    exact ⟨hb, outcome_eq_next.1 h⟩
  · cases h

@[simp] theorem responseIn_nil : responseIn [] = none := rfl
@[simp] theorem responseIn_response (r : Response) : responseIn [.response r] = some r := rfl
@[simp] theorem responseIn_dispatch (k : Token) (i : Slot) :
    responseIn [.dispatch k i] = none := rfl

/-- What one emission adds. -/
theorem outputsSince_append {s t : State} {os : List Output} (h : t.outputs = s.outputs ++ os) :
    outputsSince s t = os := by
  simp [outputsSince, h]

@[simp] theorem outputsSince_self (s : State) : outputsSince s s = [] := by simp [outputsSince]

/-- A claim reads a step as the step itself, or as stopped by an answer that is not OK. -/
theorem claimStep_cases (s : State) :
    claimStep s = step s ∨
      ∃ t r, step s = .next t ∧ responseIn (outputsSince s t) = some r ∧ r.status ≠ .ok ∧
        (claimStep s = .refused .illegalCommand ∨ claimStep s = .refused .refusedCommand ∨
          claimStep s = .fault .configurationFault) := by
  unfold claimStep
  cases hs : step s with
  | fault f => exact .inl rfl
  | refused f => exact .inl rfl
  | next t =>
    cases hr : responseIn (outputsSince s t) with
    | none => exact .inl (by simp [claimOutcome, hr])
    | some r =>
      cases hst : r.status with
      | ok => exact .inl (by simp [claimOutcome, hr, hst])
      | illegal => exact .inr ⟨t, r, rfl, hr, by simp [hst], by simp [claimOutcome, hr, hst]⟩
      | refused => exact .inr ⟨t, r, rfl, hr, by simp [hst], by simp [claimOutcome, hr, hst]⟩
      | fault => exact .inr ⟨t, r, rfl, hr, by simp [hst], by simp [claimOutcome, hr, hst]⟩

/-- What one count of the timer does. -/
theorem countTick_cases {s t : State} (h : countTick s = .ok t) :
    (s.cnt = s.arr ∧ t = { s with cnt := 0#32, uif := true }) ∨
      (s.cnt < s.arr ∧ t = { s with cnt := s.cnt + 1#32 }) := by
  unfold countTick at h
  split at h
  · cases h; exact .inl ⟨‹_›, rfl⟩
  · split at h
    · cases h; exact .inr ⟨‹_›, rfl⟩
    · cases h

/-- What a step does: nothing without a stimulus; the operation of the next stimulus; the answer
ILLEGAL. -/
theorem step_cases {s t : State} (h : step s = .next t) :
    (s.stimuli = [] ∧ t = s) ∨
      (∃ i, s.nextIs i ∧ exec i s.tail = .next t) ∨
      (∃ x, s.stimuli.head? = some x ∧ readStimulus x = .illegalCommand ∧
        t = answerIllegal s.tail) := by
  unfold step at h
  split at h
  · cases h; exact .inl ⟨‹_›, rfl⟩
  · rename_i x rest hx
    have hh : s.stimuli.head? = some x := by simp [hx]
    split at h
    · rename_i i hr
      exact .inr (.inl ⟨i, ⟨x, hh, hr⟩, h⟩)
    · rename_i hr
      cases h
      exact .inr (.inr ⟨x, hh, hr, rfl⟩)
    · cases h

end Sys2Proof.Machine
end

