-- ==== Sys2Proof/Laws/Commands.lean ====
section
/-! SUPPORT. What the operations do, built on the laws of the shared operations: the slot taken and
the slot drained, membership in the index after an insertion, a pop and a removal, the completion
of a registration, of a removal, of one firing. -/

namespace Sys2Proof.Machine

/-! ### Slots -/

@[simp] theorem isFree_releaseSlot (i j : Slot) (s : State) :
    (releaseSlot i s).isFree j = (s.isFree j || decide (i = j)) := bit_setBit s.free i j

@[simp] theorem isReady_releaseSlot (i j : Slot) (s : State) :
    (releaseSlot i s).isReady j = (s.isReady j && !decide (i = j)) := bit_clearBit s.ready i j

@[simp] theorem isScheduled_releaseSlot (i j : Slot) (s : State) :
    (releaseSlot i s).isScheduled j = s.isScheduled j := rfl

/-- The bit scan of a bitmap whose lowest set bit belongs to a slot. -/
theorem ctz_of_lowest {v : Bitmap} {i : Slot} (h : bit v i = true)
    (hl : ∀ j : Slot, j.toNat < i.toNat → bit v j = false) : ctz v = some i.toNat := by
  have hi := slot_toNat_lt i
  refine (ctz_eq_some_iff v _).2 ⟨h, by omega, fun k hk => ?_⟩
  have := hl (BitVec.ofNat 4 k) (by simpa [Nat.mod_eq_of_lt (show k < 16 by omega)] using hk)
  rwa [bit_ofNat (by omega)] at this

/-- `allocate_slot` takes the lowest free slot, whatever stands above bit 15. -/
theorem allocateSlot_of_lowestFree {s : State} {i : Slot} (h : s.lowestFree i) :
    allocateSlot s = .ok (some (i, { s with free := clearBit s.free i })) := by
  have hi := slot_toNat_lt i
  simp only [allocateSlot, ctz_of_lowest h.1 h.2, slotOfIndex_of_lt hi]
  simp

/-- A drain step dispatches the lowest ready slot, whatever stands above bit 15. -/
theorem drainStep_of_lowestReady {s : State} {i : Slot} (h : s.lowestReady i) :
    drainStep s = .ok ({ s with ready := clearBit s.ready i, updSlot := i, updActive := true }.emit
      (.dispatch (s.record i).callback i)) := by
  have hi := slot_toNat_lt i
  simp only [drainStep, ctz_of_lowest h.1 h.2, slotOfIndex_of_lt hi]
  simp

/-! ### Index -/

/-- The search reads the index, its length and the records, and nothing else. -/
theorem searchPosition_congr {s t : State} (new : Micros) (hs : s.sorted = t.sorted)
    (hc : s.count = t.count) (ht : s.tasks = t.tasks) :
    searchPosition s new = searchPosition t new := by
  have hd : ∀ p, deadlineAt s p = deadlineAt t p := fun p => by
    simp [deadlineAt, getAt, State.record, hs, ht]
  have hl : ∀ fuel l r, searchLoop s new fuel l r = searchLoop t new fuel l r := by
    intro fuel
    induction fuel with
    | zero => intro l r; rfl
    | succ n ih => intro l r; simp only [searchLoop, hd, ih]
  rw [searchPosition, searchPosition, hc, hl]

/-- The nibbles after `insert_sorted`: one position, at most `count`, takes the slot. -/
theorem insertSorted_nib {s t : State} {i : Slot} (h : insertSorted i s = .ok t) :
    ∃ p ≤ s.count.toNat, t.count.toNat = s.count.toNat + 1 ∧
      (p = 0 ∨ sdiff (deadlineAt s (p - 1)) (s.record i).nextFireUs ≤ 0) ∧
      (p = s.count.toNat ∨ 0 < sdiff (deadlineAt s p) (s.record i).nextFireUs) ∧
      ∀ q < 16, nib t.sorted q =
        if q < p then nib s.sorted q else if q = p then i else nib s.sorted (q - 1) := by
  obtain ⟨hc, rfl⟩ := insertSorted_cases h
  have hp := searchPosition_le s (s.record i).nextFireUs
  have hb := searchPosition_boundary s (s.record i).nextFireUs
  exact ⟨_, hp, count_add_one _ hc, hb.1, hb.2,
    fun q hq => nib_insertNibble _ _ _ _ (by omega) hq⟩

/-- `insert_sorted` schedules its slot and keeps every other. -/
theorem isScheduled_insertSorted {s t : State} {i : Slot} (h : insertSorted i s = .ok t)
    (j : Slot) : t.isScheduled j = (s.isScheduled j || decide (i = j)) := by
  obtain ⟨hc, -⟩ := insertSorted_cases h
  obtain ⟨p, hp, hn, -, -, hq⟩ := insertSorted_nib h
  rw [Bool.eq_iff_iff, Bool.or_eq_true, isScheduled_iff, isScheduled_iff, decide_eq_true_iff]
  constructor
  · rintro ⟨q, hq1, rfl⟩
    have := hq q (by omega)
    split at this
    · exact .inl ⟨q, by omega, this.symm⟩
    · split at this
      · exact .inr this.symm
      · exact .inl ⟨q - 1, by omega, this.symm⟩
  · rintro (⟨q, hq1, rfl⟩ | rfl)
    · by_cases hlt : q < p
      · exact ⟨q, by omega, by rw [hq q (by omega), if_pos hlt]⟩
      · exact ⟨q + 1, by omega, by
          rw [hq (q + 1) (by omega), if_neg (by omega), if_neg (by omega), Nat.add_sub_cancel]⟩
    · exact ⟨p, by omega, by rw [hq p (by omega), if_neg (by omega), if_pos rfl]⟩

/-- After the slot at position `p` is closed up, what stood elsewhere is still scheduled. -/
theorem isScheduled_removeNibble {s : State} {p : Nat} (hp : p < s.count.toNat)
    (h16 : s.count.toNat ≤ 16) (j : Slot) :
    ({ s with sorted := removeNibble s.sorted p, count := s.count - 1#5 } : State).isScheduled j
      = true ↔ ∃ q < s.count.toNat, q ≠ p ∧ nib s.sorted q = j := by
  rw [isScheduled_iff]
  have hc := count_sub_one s.count (by omega)
  simp only [hc]
  constructor
  · rintro ⟨q, hq, e⟩
    rw [nib_removeNibble _ _ _ (by omega)] at e
    split at e
    · exact ⟨q, by omega, by omega, e⟩
    · exact ⟨q + 1, by omega, by omega, e⟩
  · rintro ⟨q, hq, hne, e⟩
    by_cases hlt : q < p
    · exact ⟨q, by omega, by rw [nib_removeNibble _ _ _ (by omega), if_pos hlt, e]⟩
    · exact ⟨q - 1, by omega, by
        rw [nib_removeNibble _ _ _ (by omega), if_neg (by omega), show q - 1 + 1 = q by omega, e]⟩

/-- `remove_sorted` unschedules its slot and keeps every other, where no slot stands twice. -/
theorem isScheduled_removeSorted {s : State} {i : Slot} (h16 : s.count.toNat ≤ 16)
    (hn : ∀ p q, p < q → q < s.count.toNat → nib s.sorted p ≠ nib s.sorted q) (j : Slot) :
    (removeSorted i s).isScheduled j = (s.isScheduled j && !decide (i = j)) := by
  rcases removeSorted_cases i s with ⟨h, e⟩ | ⟨p, hp, hi, -, e⟩
  · rw [e]
    by_cases hij : i = j
    · subst hij; simp [h]
    · simp [hij]
  · rw [e, Bool.eq_iff_iff, isScheduled_removeNibble hp h16, Bool.and_eq_true, isScheduled_iff]
    simp only [Bool.not_eq_true', decide_eq_false_iff_not]
    constructor
    · rintro ⟨q, hq, hne, rfl⟩
      refine ⟨⟨q, hq, rfl⟩, fun e2 => ?_⟩
      rw [← hi] at e2
      rcases Nat.lt_or_gt_of_ne hne with hlt | hlt
      · exact hn q p hlt hp e2.symm
      · exact hn p q hlt hq e2
    · rintro ⟨⟨q, hq, rfl⟩, hne⟩
      exact ⟨q, hq, fun e2 => hne (by rw [e2, hi]), rfl⟩

/-! ### Registration and removal -/

/-- `register_common` on valid arguments with a free slot and room in the index: everything it
does. -/
theorem registerCommon_success {s : State} {p : Micros} {cb : Token} (rep : Bool) {i : Slot}
    (hv : registrationValid p cb = true) (hf : s.lowestFree i) (hc : s.count.toNat < 16) :
    ∃ s2 t, insertSorted i (storeRegistration { s with free := clearBit s.free i }
        (clampPeriod p) cb rep i) = .ok s2 ∧
      scheduleNextInterval s2 = .ok t ∧
      registerCommon p cb rep s = .ok ((t.record i).id, t) := by
  have hi := insertSorted_of_lt (s := storeRegistration { s with free := clearBit s.free i }
        (clampPeriod p) cb rep i) i hc
  obtain ⟨t, ht, -, -⟩ := scheduleNextInterval_spec { storeRegistration
    { s with free := clearBit s.free i } (clampPeriod p) cb rep i with
      sorted := insertNibble (storeRegistration { s with free := clearBit s.free i }
        (clampPeriod p) cb rep i).sorted (searchPosition (storeRegistration
          { s with free := clearBit s.free i } (clampPeriod p) cb rep i)
          ((storeRegistration { s with free := clearBit s.free i }
            (clampPeriod p) cb rep i).record i).nextFireUs) i
      count := (storeRegistration { s with free := clearBit s.free i }
        (clampPeriod p) cb rep i).count + 1#5 }
  refine ⟨_, t, hi, ht, ?_⟩
  simp only [registerCommon, hv, allocateSlot_of_lowestFree hf, hi, ht, if_true]

/-- The prescaler is configured exactly on a valid platform. -/
theorem prescalerOf_eq_some_iff (p : Platform) (v : Nat) :
    prescalerOf p = some v ↔ 1000000 ∣ p.timerClkHz ∧ 1 ≤ p.timerClkHz / 1000000 ∧
      p.timerClkHz / 1000000 - 1 ≤ p.pscMax ∧ v = p.timerClkHz / 1000000 - 1 := by
  unfold prescalerOf Config.frequency
  rw [Nat.dvd_iff_mod_eq_zero]
  split
  · simp; omega
  · split
    · simp; omega
    · split
      · simp; omega
      · simp only [Option.some.injEq]
        omega

theorem prescalerOf_eq_none_iff (p : Platform) :
    prescalerOf p = none ↔ ¬(1000000 ∣ p.timerClkHz ∧ 1 ≤ p.timerClkHz / 1000000 ∧
      p.timerClkHz / 1000000 - 1 ≤ p.pscMax) := by
  constructor
  · rintro h ⟨h1, h2, h3⟩
    rw [(prescalerOf_eq_some_iff p _).2 ⟨h1, h2, h3, rfl⟩] at h
    cases h
  · intro h
    cases hp : prescalerOf p with
    | none => rfl
    | some v =>
      have := (prescalerOf_eq_some_iff p v).1 hp
      exact absurd ⟨this.1, this.2.1, this.2.2.1⟩ h

/-- What the body of a removal does when it answers. -/
theorem removalBody_cases {b : Bool} {i : Slot} {s t : State} (h : removalBody b i s = .ok t) :
    (b = false ∧ t = s.respond .ok 0#64) ∨
      ∃ u, b = true ∧ scheduleNextInterval (releaseSlot i (removeSorted i s)) = .ok u ∧
        t = u.respond .ok 1#64 := by
  unfold removalBody at h
  split at h
  · split at h
    · cases h
    · rename_i hb _ u hu
      cases h
      exact .inr ⟨u, hb, hu, rfl⟩
  · rename_i hb
    cases h
    exact .inl ⟨by simpa using hb, rfl⟩

/-- What the body of START does when it answers. -/
theorem startBody_cases {s t : State} (h : startBody s = .ok t) :
    (prescalerOf s.platform = none ∧ t = raiseConfigFault s) ∨
      ∃ v u, prescalerOf s.platform = some v ∧
        scheduleNextInterval { s with
          psc := v, cnt := 0#32, uif := false, uie := true, started := true } = .ok u ∧
        t = u.respond .ok 0#64 := by
  unfold startBody configurePrescaler at h
  cases hp : prescalerOf s.platform with
  | none =>
    simp only [hp] at h
    cases h
    exact .inl ⟨rfl, rfl⟩
  | some v =>
    simp only [hp] at h
    split at h
    · cases h
    · rename_i u hu
      cases h
      exact .inr ⟨v, u, rfl, hu, rfl⟩

/-- What the body of a registration does when it answers. -/
theorem registrationBody_cases {p : Micros} {cb : Token} {rep : Bool} {s t : State}
    (h : registrationBody p cb rep s = .ok t) :
    ∃ id u, registerCommon p cb rep s = .ok (id, u) ∧ t = u.respond .ok (id.setWidth 64) := by
  unfold registrationBody at h
  split at h
  · cases h
  · rename_i id u hu
    cases h
    exact ⟨id, u, hu, rfl⟩

/-! ### Firing -/

/-- One iteration of the firing loop: the front is popped and marked ready, and inserted again
with a new deadline if it repeats. -/
theorem fireFront_cases {s t : State} (h : fireFront s = .ok t) :
    s.count ≠ 0#5 ∧
      (((s.record (nib s.sorted 0)).repeating = false ∧ t = { s with
          sorted := s.sorted >>> 4, count := s.count - 1#5,
          ready := setBit s.ready (nib s.sorted 0) }) ∨
        ((s.record (nib s.sorted 0)).repeating = true ∧
          insertSorted (nib s.sorted 0) (({ s with
            sorted := s.sorted >>> 4, count := s.count - 1#5,
            ready := setBit s.ready (nib s.sorted 0) } : State).setRecord (nib s.sorted 0)
            { s.record (nib s.sorted 0) with
              nextFireUs := deadlineAfter s.g32 (s.record (nib s.sorted 0)).periodUs }) =
            .ok t)) := by
  have hc : s.count ≠ 0#5 := by
    intro h0
    simp [fireFront, frontId, h0] at h
  refine ⟨hc, ?_⟩
  cases hr : (s.record (nib s.sorted 0)).repeating with
  | false =>
    rw [fireFront_oneShot hc hr] at h
    cases h
    exact .inl ⟨rfl, rfl⟩
  | true =>
    rw [fireFront_periodic hc hr] at h
    exact .inr ⟨rfl, h⟩

/-- The interrupt operation: acknowledge, advance, the firing loop, the reload controller. -/
theorem onTimerUpdate_cases {s t : State} (h : onTimerUpdate s = .ok t) :
    ∃ u, fireLoop 16 (advanceTick (acknowledgeUpdate s)) = .ok u ∧
      scheduleNextInterval u = .ok t := by
  unfold onTimerUpdate at h
  split at h
  · cases h
  · rename_i u hu
    exact ⟨u, hu, h⟩

end Sys2Proof.Machine
end

