-- ==== Sys2Proof/Laws/Decode.lean ====
section
/-! SUPPORT. The fields of a laid-out word, a word rebuilt from its fields, and what the decoder
and the reader of a stimulus can answer. -/

namespace Sys2Proof

/-! ### Fields -/

@[simp] theorem opField_packWord (op : BitVec 4) (a b : BitVec 32) :
    opField (packWord op a b) = op := by
  ext k hk
  simp only [opField, packWord, BitVec.getElem_extractLsb', BitVec.getLsbD_append]
  simp [show ¬ 64 + k < 32 by omega, show ¬ 64 + k - 32 < 32 by omega,
    show 64 + k - 32 - 32 = k by omega, BitVec.getLsbD_eq_getElem hk]

@[simp] theorem aField_packWord (op : BitVec 4) (a b : BitVec 32) :
    aField (packWord op a b) = a := by
  ext k hk
  simp only [aField, packWord, BitVec.getElem_extractLsb', BitVec.getLsbD_append]
  simp [show ¬ 32 + k < 32 by omega, show 32 + k - 32 = k by omega, hk]

@[simp] theorem bField_packWord (op : BitVec 4) (a b : BitVec 32) :
    bField (packWord op a b) = b := by
  ext k hk
  simp only [bField, packWord, BitVec.getElem_extractLsb', BitVec.getLsbD_append]
  simp [hk]

/-- A word is laid out from its three fields. -/
theorem packWord_fields (w : StimulusWord) : packWord (opField w) (aField w) (bField w) = w := by
  apply BitVec.eq_of_getLsbD_eq
  intro k hk
  simp only [packWord, opField, aField, bField, BitVec.getLsbD_append, BitVec.getLsbD_extractLsb']
  by_cases h1 : k < 32
  · simp [h1]
  · by_cases h2 : k < 64
    · simp [h1, show k - 32 < 32 by omega, show 32 + (k - 32) = k by omega]
    · simp [h1, show ¬ k - 32 < 32 by omega, show k - 32 - 32 < 4 by omega,
        show 64 + (k - 32 - 32) = k by omega]

/-- Two words with the same fields are the same word. -/
theorem word_ext {v w : StimulusWord} (ho : opField v = opField w) (ha : aField v = aField w)
    (hb : bField v = bField w) : v = w := by
  rw [← packWord_fields v, ← packWord_fields w, ho, ha, hb]

/-- The low half of `a` is the handle that was put there. -/
@[simp] theorem handleField_packWord (op : BitVec 4) (id : Handle) (b : BitVec 32) :
    handleField (packWord op (id.setWidth 32) b) = id := by
  ext k hk
  simp [handleField, show k < 32 by omega, BitVec.getLsbD_eq_getElem hk]

/-- The high half of `a` is zero exactly when `a` is a handle with zeros above it. -/
theorem highHalf_eq_zero_iff (a : BitVec 32) :
    a.extractLsb' 16 16 = 0#16 ↔ (a.extractLsb' 0 16).setWidth 32 = a := by
  constructor
  · intro h
    apply BitVec.eq_of_getLsbD_eq
    intro k hk
    by_cases h1 : k < 16
    · simp [h1, hk]
    · have := congrArg (fun x => x.getLsbD (k - 16)) h
      simp [show k - 16 < 16 by omega, show 16 + (k - 16) = k by omega, - BitVec.getLsbD_eq_getElem] at this
      rw [this]
      simp [h1]
  · intro h
    rw [← h]
    apply BitVec.eq_of_getLsbD_eq
    intro k hk
    simp [hk]

/-! ### Decoder -/

/-- An answer of the decoder for an operation without operands. -/
theorem decodePlain_ok {i j : Instr} {w : StimulusWord} (h : decodePlain i w = .ok j) :
    j = i ∧ aField w = 0#32 ∧ bField w = 0#32 := by
  unfold decodePlain at h
  split at h
  · rename_i hc
    cases h
    exact ⟨rfl, hc⟩
  · cases h

/-- An answer of the decoder for an operation with a handle. -/
theorem decodeHandle_ok {f : Handle → Instr} {j : Instr} {w : StimulusWord}
    (h : decodeHandle f w = .ok j) :
    j = f (handleField w) ∧ aField w = (handleField w).setWidth 32 ∧ bField w = 0#32 := by
  unfold decodeHandle at h
  split at h
  · rename_i hc
    cases h
    exact ⟨rfl, ((highHalf_eq_zero_iff _).1 hc.1).symm, hc.2⟩
  · cases h

/-- The opcode of an encoded stimulus. -/
theorem opField_encode (i : Instr) : (opField (encode i)).toNat =
    match i with
    | .start => 0 | .registerTask _ _ => 1 | .setTimeout _ _ => 2 | .unregisterTask _ => 3
    | .cancelTimeout _ => 4 | .update => 5 | .getGlobalTick => 6 | .onTimerUpdate => 8
    | .cbReturn => 9 | .tick => 10 := by
  cases i <;> simp [encode]

namespace Machine

/-- What reading a stimulus can give, and when. -/
theorem readStimulus_perform {x : Stimulus} {i : Instr} (h : readStimulus x = .perform i) :
    decode x.word = .ok i ∧ i.source = x.source := by
  unfold readStimulus at h
  split at h
  · split at h <;> simp_all
  · cases h
  · split at h <;> simp_all
  · cases h

theorem readStimulus_of_decode {x : Stimulus} {i : Instr} (h : decode x.word = .ok i)
    (hs : i.source = x.source) : readStimulus x = .perform i := by
  cases hx : x.source <;> simp [readStimulus, h, hs, hx]

/-- ILLEGAL is an answer to the command port only. -/
theorem readStimulus_illegal {x : Stimulus} (h : readStimulus x = .illegalCommand) :
    x.source = .commandPort := by
  unfold readStimulus at h
  split at h
  · assumption
  · assumption
  · split at h <;> cases h
  · cases h

end Machine

end Sys2Proof
end

