-- ==== Sys2Proof/Laws/Order.lean ====
section
/-! SUPPORT. Order and windows: the signed difference of two values that lie in one window of 2^31,
and that a timely state is in order and within one window, so that what is stated for windows
covers every state without an overrun. -/

namespace Sys2Proof.Machine

/-- Within a window of less than 2^31 the signed difference is the difference of the distances from
the window's base (00_scope.md R9). -/
theorem sdiff_of_window {a b base : Micros} (ha : (a - base).toNat < 2 ^ 31)
    (hb : (b - base).toNat < 2 ^ 31) :
    sdiff a b = ((a - base).toNat : Int) - (b - base).toNat := by
  rw [sdiff, BitVec.toInt_eq_toNat_cond]
  have h : (a - b).toNat = ((a - base).toNat + (2 ^ 32 - (b - base).toNat)) % 2 ^ 32 := by
    rw [show a - b = (a - base) - (b - base) by bv_omega, BitVec.toNat_sub]
    congr 1
    omega
  split <;> omega

/-- A value that is not before the base, by the signed difference, is in the base's window. -/
theorem window_of_sdiff {a base : Micros} (h : 0 ≤ sdiff a base) : (a - base).toNat < 2 ^ 31 := by
  rw [sdiff, BitVec.toInt_eq_toNat_cond] at h
  have := (a - base).isLt
  split at h <;> omega

/-- The order by position, reflexive. -/
theorem State.Ordered.le {s : State} (h : s.Ordered) {p q : Nat} (hpq : p ≤ q)
    (hq : q < s.count.toNat) : sdiff (deadlineAt s p) (deadlineAt s q) ≤ 0 := by
  rcases Nat.lt_or_eq_of_le hpq with hlt | rfl
  · exact h p q hlt hq
  · exact (sdiff_self _).le

/-- A timely state is in order. -/
theorem State.Timely.toOrdered {s : State} (h : s.Timely) : s.Ordered := h.ordered

/-- In a timely state the interrupt operation works at the front deadline. -/
theorem serviceTick_of_timely {s : State} (h : s.Timely) (hc : s.count ≠ 0#5) :
    s.serviceTick = deadlineAt s 0 := by
  have he := h.curExact hc
  have hp := h.future 0 ((count_ne_zero_iff s).1 hc)
  rw [sdiff, BitVec.toInt_eq_toNat_cond] at he hp
  have hs : s.serviceTick = s.g32 + s.cur := by
    apply BitVec.eq_of_toNat_eq
    simp [State.serviceTick, State.g32, BitVec.toNat_add]
  rw [hs]
  split at he <;> bv_omega

/-- A timely state with the core invariants is within one window at its next interrupt: the base is
the front deadline. -/
theorem serviceWindow_of_timely {s : State} (hi : s.CoreInv) (h : s.Timely) :
    s.ServiceWindow := by
  by_cases hc : s.count = 0#5
  · exact ⟨s.serviceTick, by simp, by simp [hc], by simp [hc]⟩
  · have hs := serviceTick_of_timely h hc
    have h0 := (count_ne_zero_iff s).1 hc
    have hw : ∀ p < s.count.toNat, (deadlineAt s p - s.g32).toNat < 2 ^ 31 := fun p hp =>
      window_of_sdiff (by have := h.future p hp; omega)
    refine ⟨s.serviceTick, by simp, fun p hp => window_of_sdiff ?_, fun p hp _ _ =>
      window_of_sdiff ?_⟩
    · have := h.toOrdered.le (Nat.zero_le p) hp
      rw [sdiff_of_window (hw 0 h0) (hw p hp)] at this
      rw [hs, sdiff_of_window (hw p hp) (hw 0 h0)]
      omega
    · have hr := hi.periodRange _ (isScheduled_nib s hp)
      rw [sdiff_deadlineAfter _ _ hr.2]
      omega

end Sys2Proof.Machine
end

