-- ==== Sys2Proof/Laws/PerInstr.lean ====
section
/-! SUPPORT. The per-instruction family `EncodesWellFormed`: the stimulus that stands for an
instruction passes the three checks of WellFormed.lean. -/

namespace Sys2Proof.Laws

/-- The encoded instruction, arriving on its own side, is a well-formed stimulus
(30_encoding.md R102, R108). -/
def EncodesWellFormed.Statement (i : Instr) : Prop := (stimulusOf i).wellFormed = true

theorem EncodesWellFormed.start : EncodesWellFormed.Statement .start := by
  simp only [EncodesWellFormed.Statement]; decide

theorem EncodesWellFormed.registerTask (p : Micros) (cb : Token) :
    EncodesWellFormed.Statement (.registerTask p cb) := by
  simp [EncodesWellFormed.Statement, Stimulus.wellFormed, stimulusOf, encode, opcodeAssigned,
    unusedFieldsZero, sourceOfOpcode, Instr.source]

theorem EncodesWellFormed.setTimeout (p : Micros) (cb : Token) :
    EncodesWellFormed.Statement (.setTimeout p cb) := by
  simp [EncodesWellFormed.Statement, Stimulus.wellFormed, stimulusOf, encode, opcodeAssigned,
    unusedFieldsZero, sourceOfOpcode, Instr.source]

theorem EncodesWellFormed.unregisterTask (id : Handle) :
    EncodesWellFormed.Statement (.unregisterTask id) := by
  have := id.isLt
  simp [EncodesWellFormed.Statement, Stimulus.wellFormed, stimulusOf, encode, opcodeAssigned,
    unusedFieldsZero, sourceOfOpcode, Instr.source]
  omega

theorem EncodesWellFormed.cancelTimeout (id : Handle) :
    EncodesWellFormed.Statement (.cancelTimeout id) := by
  have := id.isLt
  simp [EncodesWellFormed.Statement, Stimulus.wellFormed, stimulusOf, encode, opcodeAssigned,
    unusedFieldsZero, sourceOfOpcode, Instr.source]
  omega

theorem EncodesWellFormed.update : EncodesWellFormed.Statement .update := by
  simp only [EncodesWellFormed.Statement]; decide

theorem EncodesWellFormed.getGlobalTick : EncodesWellFormed.Statement .getGlobalTick := by
  simp only [EncodesWellFormed.Statement]; decide

theorem EncodesWellFormed.onTimerUpdate : EncodesWellFormed.Statement .onTimerUpdate := by
  simp only [EncodesWellFormed.Statement]; decide

theorem EncodesWellFormed.cbReturn : EncodesWellFormed.Statement .cbReturn := by
  simp only [EncodesWellFormed.Statement]; decide

theorem EncodesWellFormed.tick : EncodesWellFormed.Statement .tick := by
  simp only [EncodesWellFormed.Statement]; decide

end Sys2Proof.Laws
end

