-- ==== Sys2Proof/Tests/Slice0.lean ====
section
/-! SUPPORT. The model's own tests: words written out from 30_encoding.md, ill-formed stimuli, the
worked examples of the section files, and one witness for each obligation with hypotheses. Every
expected value is the spec's (its rule stands in the docstring) or worked out from it by hand. -/

namespace Sys2Proof.Tests

open Sys2Proof.Machine

/-! ### Helpers -/

/-- The state an outcome goes on with. -/
def nextOf : Host.Outcome State Fault Refusal → Option State
  | .next s => some s
  | .fault _ => none
  | .refused _ => none

/-- One field of the next state, if there is one. -/
def seen {α : Type} (o : Host.Outcome State Fault Refusal) (f : State → α) : Option α :=
  (nextOf o).map f

/-- The status and value of the last response. -/
def lastResponse (s : State) : Option Output := s.outputs.getLast?

/-- After START from reset (70_reset_and_hazards.md R283). -/
def idle : State := { State.reset with started := true, uie := true, psc := 239 }

/-- After REGISTER_TASK 10, 0xCB0 on `idle` (R181's example). -/
def armed : State := { idle.setRecord 0#4 ⟨10#32, 0xCB0#32, 10#32, 0x0000#16, true⟩ with
  free := 0xFFFE#32, count := 1#5, cur := 10#32, arr := 9#32, cen := true }

/-- `armed` with its interval elapsed (R210's example). -/
def pending : State := { armed with uif := true }

/-- After SET_TIMEOUT 500, 0xCB1 on `idle` (R182's example). -/
def oneShot : State := { idle.setRecord 0#4 ⟨500#32, 0xCB1#32, 500#32, 0x0010#16, false⟩ with
  free := 0xFFFE#32, count := 1#5, gen := 3#12, cur := 500#32, arr := 499#32, cen := true }

/-- Slot 0 due at 10 and slot 1 due at 4, two ticks counted (R184's example). -/
def two : State :=
  { (idle.setRecord 0#4 ⟨10#32, 0xCB0#32, 10#32, 0x0000#16, true⟩).setRecord 1#4
      ⟨4#32, 0xCB2#32, 4#32, 0x0001#16, true⟩ with
    free := 0xFFFC#32, sorted := 0x01#64, count := 2#5, cur := 4#32, arr := 3#32, cnt := 2#32,
    cen := true }

/-- Slot 1 overdue by 10 after an overrun, slot 0 due at 100, the interrupt pending
(95_test_vectors.md T6.3 e). -/
def overdue : State :=
  { (idle.setRecord 0#4 ⟨100#32, 0xCB0#32, 100#32, 0x0000#16, true⟩).setRecord 1#4
      ⟨50#32, 0xCB1#32, 50#32, 0x0001#16, true⟩ with
    free := 0xFFFC#32, sorted := 0x01#64, count := 2#5, g := 60#64, cur := 1#32, arr := 0#32,
    cen := true, uif := true }

/-- Slot 0 due at 100, sixty ticks counted (95_test_vectors.md T6.2 e, before its registration). -/
def midInterval : State :=
  { idle.setRecord 0#4 ⟨100#32, 0xCB0#32, 100#32, 0x0000#16, true⟩ with
    free := 0xFFFE#32, count := 1#5, cur := 100#32, arr := 99#32, cnt := 60#32, cen := true }

/-- Deadlines 100, 200 and 300 in slots 3, 1 and 5, and 200 in slot 2, which is not scheduled
(R141's example). -/
def three : State :=
  { (((idle.setRecord 3#4 ⟨100#32, 0xCB3#32, 100#32, 0x0003#16, true⟩).setRecord 1#4
      ⟨200#32, 0xCB1#32, 200#32, 0x0001#16, true⟩).setRecord 5#4
      ⟨300#32, 0xCB5#32, 300#32, 0x0005#16, true⟩).setRecord 2#4
      ⟨200#32, 0xCB2#32, 200#32, 0x0002#16, true⟩ with
    free := 0xFFD5#32, sorted := 0x513#64, count := 3#5, cur := 100#32, arr := 99#32,
    cen := true }

/-- All three places of an occupied slot at once: slot 0 periodic, scheduled and ready; slot 1 a
one-shot in flight; slot 2 a one-shot ready; the interval of slot 0 elapsed (R45, R221). -/
def busy : State :=
  { ((idle.setRecord 0#4 ⟨10#32, 0xCB0#32, 10#32, 0x0000#16, true⟩).setRecord 1#4
      ⟨5#32, 0xCB1#32, 5#32, 0x0011#16, false⟩).setRecord 2#4
      ⟨5#32, 0xCB2#32, 5#32, 0x0032#16, false⟩ with
    free := 0xFFF8#32, ready := 0x5#32, count := 1#5, gen := 5#12, cur := 10#32, arr := 9#32,
    cen := true, uif := true, updActive := true, updSlot := 1#4 }

/-- R298 before CB_RETURN: the slot in flight holds a scheduled one-shot. -/
def reused : State := { idle.setRecord 0#4 ⟨14#32, 0xCB2#32, 9#32, 0x0030#16, false⟩ with
  free := 0xFFFE#32, count := 1#5, g := 5#64, gen := 5#12, cur := 9#32, arr := 8#32,
  cen := true, updActive := true }

/-- Fifteen slots occupied by one-shots that wait in `ready`; slot 15 free (R294). -/
def fifteen : State :=
  { idle with
    tasks := Vector.replicate 16 ⟨1#32, 0xCB0#32, 1#32, 0xFFF0#16, false⟩,
    free := 0x8000#32, ready := 0x7FFF#32, gen := 15#12 }

/-- A full index that holds slot 0 sixteen times while slot 0 is free: out of reach of a host that
keeps its duties (R298, U9). -/
def overfull : State :=
  { idle with
    tasks := Vector.replicate 16 ⟨10#32, 0xCB0#32, 10#32, 0x0000#16, true⟩,
    free := 0x1#32, count := 16#5, cur := 10#32, arr := 9#32, cen := true }

/-- A state with one more waiting stimulus. -/
def withNext (i : Instr) (s : State) : State := { s with stimuli := [stimulusOf i] }

/-- The next stimulus of `withNext` is the one given, and no other. -/
theorem nextIs_withNext {i j : Instr} {s : State} (h : readStimulus (stimulusOf i) = .perform i) :
    (withNext i s).nextIs j ↔ j = i := by
  constructor
  · rintro ⟨x, hx, hr⟩
    cases hx
    rw [h] at hr
    cases hr
    rfl
  · rintro rfl
    exact ⟨_, rfl, h⟩

/-- A fact about all pairs of positions below a bound, in the order invariants state it. -/
theorem pairs {P : Nat → Nat → Prop} {n : Nat} (h : ∀ q < n, ∀ p < q, P p q) :
    ∀ p q, p < q → q < n → P p q := fun p q h1 h2 => h q h2 p h1

/-! ### Words (30_encoding.md R101, R102, written out field by field) -/

theorem test_decode_start : decode (0b0000#4 ++ 0#32 ++ 0#32) = .ok .start := by decide
theorem test_decode_registerTask :
    decode (0b0001#4 ++ 0x0000000A#32 ++ 0x00000CB0#32) = .ok (.registerTask 10#32 0xCB0#32) := by
  decide
theorem test_decode_setTimeout :
    decode (0b0010#4 ++ 0x000001F4#32 ++ 0x00000CB1#32) = .ok (.setTimeout 500#32 0xCB1#32) := by
  decide
theorem test_decode_unregisterTask :
    decode (0b0011#4 ++ 0x0000#16 ++ 0x0001#16 ++ 0#32) = .ok (.unregisterTask 1#16) := by decide
theorem test_decode_cancelTimeout :
    decode (0b0100#4 ++ 0x0000#16 ++ 0xFFF3#16 ++ 0#32) = .ok (.cancelTimeout 0xFFF3#16) := by
  decide
theorem test_decode_update : decode (0b0101#4 ++ 0#32 ++ 0#32) = .ok .update := by decide
theorem test_decode_getGlobalTick :
    decode (0b0110#4 ++ 0#32 ++ 0#32) = .ok .getGlobalTick := by decide
theorem test_decode_onTimerUpdate :
    decode (0b1000#4 ++ 0#32 ++ 0#32) = .ok .onTimerUpdate := by decide
theorem test_decode_cbReturn : decode (0b1001#4 ++ 0#32 ++ 0#32) = .ok .cbReturn := by decide
theorem test_decode_tick : decode (0b1010#4 ++ 0#32 ++ 0#32) = .ok .tick := by decide
/-- The word of TICK as one number. -/
theorem test_decode_tick_word : decode 0xA0000000000000000#68 = .ok .tick := by decide
theorem test_decode_reserved :
    decode (0b0111#4 ++ 0#32 ++ 0#32) = .error (.reservedOpcode 7#4) := by decide
theorem test_encode_registerTask :
    encode (.registerTask 10#32 0xCB0#32) = 0x10000000A00000CB0#68 := by decide
theorem test_encode_cancelTimeout : encode (.cancelTimeout 0x10#16) = 0x40000001000000000#68 := by
  decide
/-- A 72-bit number of the host with a bit above the word's 68. -/
theorem test_tableWord_too_long : decodeTableWord 72 (2 ^ 68) = none := by decide
theorem test_tableWord_tick : decodeTableWord 72 0xA0000000000000000 = some .tick := by decide
/-- R104: REFUSED has status 2. -/
theorem test_encode_response :
    encodeResponse ⟨.refused, 0#64⟩ = 0x20000000000000000#66 := by decide

/-! ### Ill-formed stimuli (30_encoding.md R108) -/

theorem test_wellFormed : (Stimulus.mk .commandPort 0x10000000A00000CB0#68).wellFormed = true := by
  decide
theorem test_illFormed_reserved_opcode :
    (Stimulus.mk .commandPort 0x70000000000000000#68).wellFormed = false := by decide
theorem test_illFormed_unused_field :
    (Stimulus.mk .commandPort 0x30001000000000000#68).wellFormed = false := by decide
theorem test_illFormed_side :
    (Stimulus.mk .commandPort 0xA0000000000000000#68).wellFormed = false := by decide

/-! ### Steps -/

/-- R108: an environment event on the command port is ILLEGAL. -/
theorem test_step_illegal :
    seen (step { armed with stimuli := [⟨.commandPort, 0xA0000000000000000#68⟩] })
      (fun t => (t.cnt, lastResponse t)) = some (0#32, some (.response ⟨.illegal, 0#64⟩)) := by
  decide
/-- R110: GET_GLOBAL_TICK before START is REFUSED. -/
theorem test_step_refused : seen (step (State.reset.withFetchWord 72 0x60000000000000000))
    lastResponse = some (some (.response ⟨.refused, 0#64⟩)) := by decide
/-- R180: the word of START as the first stimulus after reset. -/
theorem test_step_first : seen (step (State.reset.withFetchWord 72 0)) (fun t => t.started) =
    some true := by decide
/-- R244: the same step as a claim reads it. -/
theorem test_claimStep_refused :
    claimStep (State.reset.withFetchWord 72 0x60000000000000000) = .refused .refusedCommand := rfl
/-- Nothing to do (the model's choice, log 4). -/
theorem test_step_no_stimulus : nextOf (step idle) = some idle := by decide

/-! ### START -/

/-- R180's example. -/
theorem test_start : nextOf (exec .start { State.reset with cnt := 7#32, uif := true }) =
    some { idle with outputs := [.response ⟨.ok, 0#64⟩] } := by decide
/-- R162's example, 500 000 Hz. -/
theorem test_start_fault : nextOf (exec .start { State.reset with platform := ⟨500000, 65535⟩ }) =
    some { State.reset with
      platform := ⟨500000, 65535⟩, faulted := true,
      outputs := [.response ⟨.fault, 0#64⟩] } := by decide

/-! ### Registration -/

/-- R181's example. -/
theorem test_registerTask : nextOf (exec (.registerTask 10#32 0xCB0#32) idle) =
    some { armed with outputs := [.response ⟨.ok, 0#64⟩] } := by decide
/-- R183's example: the earlier deadline goes to the front. -/
theorem test_registerTask_front : seen (exec (.registerTask 4#32 0xCB2#32) armed)
    (fun t => (t.sorted, t.count, t.cur, t.arr)) = some (0x01#64, 2#5, 4#32, 3#32) := by decide
/-- R182's example. -/
theorem test_setTimeout : nextOf (exec (.setTimeout 500#32 0xCB1#32) idle) =
    some { oneShot with outputs := [.response ⟨.ok, 0x10#64⟩] } := by decide
/-- R294: generation 15 in slot 15. -/
theorem test_setTimeout_00FF : seen (exec (.setTimeout 9#32 0xCB1#32) fifteen)
    (fun t => (t.free, t.count, lastResponse t)) =
      some (0#32, 1#5, some (.response ⟨.ok, 0xFF#64⟩)) := by decide

/-! ### Cancellation -/

/-- R184's example. -/
theorem test_unregisterTask : seen (exec (.unregisterTask 1#16) two)
    (fun t => (t.sorted, t.count, t.free, t.cur, t.arr, t.cnt)) =
      some (0x0#64, 1#5, 0xFFFE#32, 10#32, 9#32, 2#32) := by decide
/-- R184: an id of 16. -/
theorem test_unregisterTask_range : nextOf (exec (.unregisterTask 16#16) two) =
    some { two with outputs := [.response ⟨.ok, 0#64⟩] } := by decide
/-- R186's example. -/
theorem test_cancelTimeout : seen (exec (.cancelTimeout 0x10#16) oneShot)
    (fun t => (t.free, t.isIdle, lastResponse t)) =
      some (0xFFFF#32, true, some (.response ⟨.ok, 1#64⟩)) := by decide
/-- R186: a stale generation. -/
theorem test_cancelTimeout_stale : nextOf (exec (.cancelTimeout 0x30#16) oneShot) =
    some { oneShot with outputs := [.response ⟨.ok, 0#64⟩] } := by decide

/-! ### Tick -/

/-- R187: the tick after the first interrupt of R181's scenario is 10. -/
theorem test_getGlobalTick : seen (exec .getGlobalTick { armed with g := 10#64 }) lastResponse =
    some (some (.response ⟨.ok, 10#64⟩)) := by decide
/-- R161's example: the ninth TICK. -/
theorem test_tick_ninth : nextOf (exec .tick { armed with cnt := 8#32 }) =
    some { armed with cnt := 9#32 } := by decide
/-- R161's example: the tenth TICK. -/
theorem test_tick_tenth : nextOf (exec .tick { armed with cnt := 9#32 }) = some pending := by
  decide

/-! ### Interrupt -/

/-- R210's example. -/
theorem test_onTimerUpdate : seen (exec .onTimerUpdate pending)
    (fun t => (t.uif, t.g, t.ready, (t.record 0#4).nextFireUs, t.arr)) =
      some (false, 10#64, 0x1#32, 20#32, 9#32) := by decide
/-- R290, example 1: service after a registration with an update event pending. -/
theorem test_onTimerUpdate_reprogrammed :
    seen (exec .onTimerUpdate { two with cnt := 0#32, uif := true })
      (fun t => (t.g, t.ready, (t.record 1#4).nextFireUs, t.sorted, t.cur)) =
      some (4#64, 0x2#32, 8#32, 0x01#64, 4#32) := by decide

/-! ### Drain -/

/-- R220's example. -/
theorem test_update : seen (exec .update { two with ready := 0x6#32 })
    (fun t => (t.ready, t.updSlot, t.updActive, t.outputs)) =
      some (0x4#32, 1#4, true, [.dispatch 0xCB2#32 1#4]) := by decide
/-- R221's example. -/
theorem test_cbReturn : seen (exec .cbReturn { busy with ready := 0x4#32 })
    (fun t => (t.free, t.ready, t.updSlot, t.outputs)) =
      some (0xFFFA#32, 0x0#32, 2#4, [.dispatch 0xCB2#32 2#4]) := by decide
/-- R298's example. -/
theorem test_cbReturn_reused : seen (exec .cbReturn reused)
    (fun t => (t.free, t.count, t.sorted, t.updActive)) =
      some (0xFFFF#32, 1#5, 0x0#64, false) := by decide

/-! ### Shared operations -/

/-- R141's example. -/
theorem test_insertSorted : (insertSorted 2#4 three).toOption.map (fun t => (t.sorted, t.count)) =
    some (0x5213#64, 4#5) := by decide
/-- R142's example across the wraparound. -/
theorem test_searchPosition_wrap : searchPosition
    { (idle.setRecord 0#4 ⟨0xFFFFFFF0#32, 1#32, 1#32, 0#16, true⟩).setRecord 1#4
        ⟨0x10#32, 1#32, 1#32, 1#16, true⟩ with sorted := 0x10#64, count := 2#5 } 5#32 = 1 := by
  decide
/-- R143's example. -/
theorem test_removeNibble : removeNibble 0x5213#64 2 = 0x513#64 := by decide
/-- R144's first example: the flags. -/
theorem test_zeroNibbleFlags :
    zeroNibbleFlags (0x5213#64 ^^^ rep16 2#4) = 0x0000000000000800#64 := by decide
/-- R144's second example: slot 0 is absent. -/
theorem test_detect_zero : detectPosition 0x5213#64 4 0#4 = none := by decide
/-- R144's third example: a false flag above the true one. -/
theorem test_detect_false_flag : detectPosition 0xFEDCBA9876543210#64 16 0#4 = some 0 := by decide
/-- R213's overrun example. -/
theorem test_overrun : (scheduleNextInterval { armed with cnt := 50#32 }).toOption.map
    (fun t => (t.g, t.cnt, t.cur, t.arr)) = some (50#64, 0#32, 1#32, 0#32) := by decide
/-- R130's example. -/
theorem test_allocateSlot : (allocateSlot { idle with free := 0xFFF4#32 }).toOption.map
    (fun r => r.map fun x => (x.1, x.2.free)) = some (some (2#4, 0xFFF0#32)) := by decide

/-! ### Scripts (30_encoding.md R111) -/

/-- An expectation on a line whose step gives no response is not met (the model's choice, log 20). -/
theorem test_expectation_without_response :
    expectationMet (.stimulus .tick (some 0#64)) armed armed = false := by decide
theorem test_script_line : parseLine "SET_TIMEOUT 0x1F4, 3249 => 0x0010 ; first".toList =
    some (.stimulus (.setTimeout 500#32 0xCB1#32) (some 0x10#64)) := by decide
theorem test_script_callback : parseLine "! cb 0xCB1: CANCEL_TIMEOUT 0x10; GETTICK".toList =
    some (.callback 0xCB1#32 [.cancelTimeout 0x10#16, .getGlobalTick]) := by decide
/-- R112: during a drain the UPDATE of a DRAIN is answered REFUSED, so the DRAIN ends there. -/
theorem test_drain_refused : (drainAll [] 5 busy).map (fun o => seen o fun t =>
    (t.updActive, t.outputs)) = some (some (true, [.response ⟨.refused, 0#64⟩])) := by decide
/-- R112: a DRAIN of two one-shots' callbacks ends with the UPDATE response. -/
theorem test_drain : (drainAll [] 5 { busy with updActive := false, free := 0xFFFA#32 }).map
    (fun o => seen o fun t => (t.updActive, lastResponse t)) =
      some (some (false, some (.response ⟨.ok, 0#64⟩))) := by decide
theorem test_script_run : parseLine "RUN 12".toList = some (.run 12) := by decide

/-! ### Witnesses -/

theorem armed_coreInv : armed.CoreInv := by constructor <;> decide
theorem pending_coreInv : pending.CoreInv := by constructor <;> decide
theorem two_coreInv : two.CoreInv := by constructor <;> decide
theorem busy_coreInv : busy.CoreInv := by constructor <;> decide
theorem idle_coreInv : idle.CoreInv := by constructor <;> decide
theorem overfull_coreInv : overfull.CoreInv := by constructor <;> decide

theorem armed_inv : armed.Inv :=
  ⟨armed_coreInv, by decide, by decide, pairs (by decide), by decide, by decide⟩
theorem pending_inv : pending.Inv :=
  ⟨pending_coreInv, by decide, by decide, pairs (by decide), by decide, by decide⟩
theorem two_inv : two.Inv :=
  ⟨two_coreInv, by decide, by decide, pairs (by decide), by decide, by decide⟩
theorem busy_inv : busy.Inv :=
  ⟨busy_coreInv, by decide, by decide, pairs (by decide), by decide, by decide⟩

theorem overdue_inv : overdue.Inv :=
  ⟨by constructor <;> decide, by decide, by decide, pairs (by decide), by decide, by decide⟩
theorem midInterval_inv : midInterval.Inv :=
  ⟨by constructor <;> decide, by decide, by decide, pairs (by decide), by decide, by decide⟩

theorem pending_timely : pending.Timely := ⟨pairs (by decide), by decide, by decide⟩
theorem two_timely : two.Timely := ⟨pairs (by decide), by decide, by decide⟩

/-- EncodeOfDecode. -/
theorem witness_encodeOfDecode : decode 0x2FFFFFFFFFFFFFFFF#68 =
    .ok (.setTimeout 0xFFFFFFFF#32 0xFFFFFFFF#32) := by decide

/-- WellFormedStimuliArePerformed: performed; ill formed on the command port; START's word from the
environment (log 8). -/
theorem witness_wellFormed :
    readStimulus ⟨.environment, 0x80000000000000000#68⟩ = .perform .onTimerUpdate ∧
      (Stimulus.mk .commandPort 0x30001000000000000#68).wellFormed = false ∧
      (Stimulus.mk .environment 0x00000000000000000#68).wellFormed = false ∧
      readStimulus ⟨.environment, 0x00000000000000000#68⟩ = .malformedEvent := by decide

/-- StepPerformsDecodedStimulus, on the command port and from the environment. -/
theorem witness_step_command :
    (withNext .update busy).stimuli = [⟨.commandPort, 0x50000000000000000#68⟩] ∧
      decode 0x50000000000000000#68 = .ok .update ∧ Instr.update.source = .commandPort := by decide
theorem witness_step_event :
    (withNext .tick armed).stimuli = [⟨.environment, 0xA0000000000000000#68⟩] ∧
      decode 0xA0000000000000000#68 = .ok .tick ∧ Instr.tick.source = .environment := by decide

/-- IllegalAndMalformedWords: the opcodes at the ends of each range, each unused field. -/
theorem witness_illegal_opcodes :
    (opField 0x70000000000000000#68).toNat = 7 ∧ 8 ≤ (opField 0x80000000000000000#68).toNat ∧
      8 ≤ (opField 0xFFFFFFFFFFFFFFFFF#68).toNat := by decide
theorem witness_illegal_fields :
    ((opField 0x00000000100000000#68).toNat ∈ [0, 5, 6] ∧ aField 0x00000000100000000#68 ≠ 0#32) ∧
      ((opField 0x60000000000000001#68).toNat ∈ [0, 5, 6] ∧ bField 0x60000000000000001#68 ≠ 0#32) ∧
      ((opField 0x30001000000000000#68).toNat ∈ [3, 4] ∧
        2 ^ 16 ≤ (aField 0x30001000000000000#68).toNat) ∧
      (opField 0x40000001080000000#68).toNat ∈ [3, 4] ∧ bField 0x40000001080000000#68 ≠ 0#32 := by
  decide
theorem witness_malformed :
    (opField 0x70000000000000000#68).toNat = 7 ∧ 11 ≤ (opField 0xB0000000000000000#68).toNat ∧
      11 ≤ (opField 0xF0000000000000000#68).toNat ∧
      (opField 0x80000000000000001#68).toNat ∈ [8, 9, 10] ∧
      bField 0x80000000000000001#68 ≠ 0#32 ∧
      (opField 0xA8000000000000000#68).toNat ∈ [8, 9, 10] ∧
      aField 0xA8000000000000000#68 ≠ 0#32 := by
  decide

/-- GateAndEnabling: each row of the table. -/
theorem witness_gate_faulted : gateRefuses { State.reset with faulted := true } .start :=
  .inl (by decide)
theorem witness_gate_before_start : gateRefuses State.reset .getGlobalTick :=
  .inr (.inl (by decide))
theorem witness_gate_second_start : gateRefuses idle .start := .inr (.inr (.inl (by decide)))
theorem witness_gate_nested_update : gateRefuses busy .update :=
  .inr (.inr (.inr (by decide)))
theorem witness_gate_accepted : ¬ gateRefuses busy (.cancelTimeout 0x11#16) ∧
    (nextOf (exec (.cancelTimeout 0x11#16) busy)).isSome = true := by
  constructor
  · unfold gateRefuses; decide
  · decide
theorem witness_event_not_enabled :
    ¬(idle.started = true ∧ idle.faulted = false ∧ idle.cen = true) ∧
      ¬(armed.uif = true ∧ armed.uie = true) ∧ armed.updActive = false := by decide

/-- ClaimsExcludeAnswersThatAreNotOk: a reserved word, an environment event on the command port, a
refused command, a START with an invalid and with a valid clock, an accepted command, an event. -/
theorem witness_claim_illegal :
    (∀ i, decode 0x70000000000000000#68 = .ok i → i.source ≠ .commandPort) ∧
      ∀ i, decode 0xA0000000000000000#68 = .ok i → i.source ≠ .commandPort := by
  constructor
  · intro i h
    rw [show decode 0x70000000000000000#68 = .error (.reservedOpcode 7#4) by decide] at h
    cases h
  · intro i h
    rw [test_decode_tick_word] at h
    cases h
    decide
theorem witness_claim_command :
    (withNext .update busy).stimuli = [⟨.commandPort, 0x50000000000000000#68⟩] ∧
      decode 0x50000000000000000#68 = .ok .update ∧
      gateRefuses (withNext .update busy) .update ∧
      ¬ gateRefuses (withNext .update armed) .update ∧
      ¬ gateRefuses (withNext .start State.reset) .start := by
  refine ⟨by decide, by decide, .inr (.inr (.inr (by decide))), ?_, ?_⟩ <;>
    (unfold gateRefuses; decide)
theorem witness_claim_clock :
    ¬ clockValid ⟨500000, 65535⟩ ∧ clockValid ⟨240000000, 65535⟩ := by
  unfold clockValid; decide
theorem witness_claim_event :
    ∀ x ∈ (withNext .tick armed).stimuli.head?, x.source = .environment := by decide

/-- InertBeforeStartAndAfterFault: before START with UPDATE next, and faulted with START next. -/
theorem witness_inert_before_start :
    (withNext .update State.reset).CoreInv ∧ (withNext .update State.reset).started = false ∧
      ¬(withNext .update State.reset).nextIs .start ∧
      (nextOf (step (withNext .update State.reset))).isSome = true := by
  refine ⟨by constructor <;> decide, by decide, ?_, by decide⟩
  rw [nextIs_withNext (by decide)]
  decide
theorem witness_inert_after_fault :
    (withNext .start { State.reset with faulted := true }).CoreInv ∧
      (withNext .start { State.reset with faulted := true }).faulted = true ∧
      (nextOf (step (withNext .start { State.reset with faulted := true }))).isSome = true := by
  refine ⟨by constructor <;> decide, by decide, by decide⟩

/-- StartInitialisesOrFaults: the least valid clock, and each of the three errors at its edge. -/
theorem witness_start_valid :
    State.reset.started = false ∧ State.reset.faulted = false ∧ State.reset.count = 0#5 ∧
      1000000 ∣ (Platform.mk 1000000 0).timerClkHz ∧
      1 ≤ (Platform.mk 1000000 0).timerClkHz / 1000000 ∧
      (Platform.mk 1000000 0).timerClkHz / 1000000 - 1 ≤ (Platform.mk 1000000 0).pscMax := by
  decide
theorem witness_start_invalid :
    ¬ 1000000 ∣ (Platform.mk 999999 65535).timerClkHz ∧
      ¬ 1 ≤ (Platform.mk 0 65535).timerClkHz / 1000000 ∧
      ¬ (Platform.mk 240000000 238).timerClkHz / 1000000 - 1 ≤
        (Platform.mk 240000000 238).pscMax := by decide

/-- RegistrationCompletes: period 0 into slot 0, the largest period into slot 15. -/
theorem witness_registration_low :
    idle.started = true ∧ idle.faulted = false ∧ 1#32 ≠ 0#32 ∧ (0#32).toNat < 2 ^ 31 ∧
      idle.count.toNat < 16 ∧ idle.lowestFree 0#4 :=
  ⟨by decide, by decide, by decide, by decide, by decide, by decide, by decide⟩
theorem witness_registration_high :
    fifteen.started = true ∧ fifteen.faulted = false ∧ 0xCB0#32 ≠ 0#32 ∧
      (0x7FFFFFFF#32).toNat < 2 ^ 31 ∧ fifteen.count.toNat < 16 ∧ fifteen.lowestFree 15#4 :=
  ⟨by decide, by decide, by decide, by decide, by decide, by decide, by decide⟩

/-- RegistrationFailureChangesNothing: each cause. -/
theorem witness_registration_failure :
    idle.started = true ∧ idle.faulted = false ∧ (0#32 : Token) = 0#32 ∧
      2 ^ 31 ≤ (0x80000000#32).toNat ∧ { idle with free := 0#32 }.free = 0#32 := by decide

/-- UnregisterTaskEffect: slots 0 and 15, the id 16, a free slot. -/
theorem witness_unregister :
    (0#16).toNat < 16 ∧ two.isFree ((0#16).extractLsb' 0 4) = false ∧
      (15#16).toNat < 16 ∧ { two with free := 0x7FFC#32 }.isFree ((15#16).extractLsb' 0 4) = false ∧
      16 ≤ (16#16).toNat ∧ two.isFree ((2#16).extractLsb' 0 4) = true := by decide
/-- SlotRemoved: a slot that is absent from the index, and one at its last position. -/
theorem witness_slotRemoved :
    busy.isScheduled 1#4 = false ∧ nib two.sorted 1 = 0#4 ∧ 1 < two.count.toNat ∧
      ∀ q < 1, nib two.sorted q ≠ 0#4 := by decide

/-- CancelTimeoutEffect: the matching handle, and each cause of a failure. -/
theorem witness_cancel :
    oneShot.isFree ((0x10#16).extractLsb' 0 4) = false ∧
      (oneShot.record ((0x10#16).extractLsb' 0 4)).repeating = false ∧
      (oneShot.record ((0x10#16).extractLsb' 0 4)).id = 0x10#16 ∧
      oneShot.isFree ((0x1F#16).extractLsb' 0 4) = true ∧
      (armed.record ((0x00#16).extractLsb' 0 4)).repeating = true ∧
      (oneShot.record ((0x30#16).extractLsb' 0 4)).id ≠ 0x30#16 := by decide

/-- CancellationIsFinal: a one-shot that waits in `ready`. -/
theorem witness_cancellation : busy.Inv ∧
    seen (exec (.cancelTimeout 0x32#16) busy) (fun t => t.outputs) =
      some (busy.outputs ++ [.response ⟨.ok, 1#64⟩]) := ⟨busy_inv, by decide⟩

/-- TickNeverDecreases: the interrupt, and a registration in mid-interval. -/
theorem witness_tick_advances :
    (nextOf (exec .onTimerUpdate pending)).isSome = true ∧
      pending.g.toNat + pending.cur.toNat + pending.cnt.toNat < 2 ^ 64 := by decide

/-- TickCountsToReload: stopped, below, at and above the reload value. -/
theorem witness_tick :
    idle.cen = false ∧ armed.started = true ∧ armed.faulted = false ∧ armed.cen = true ∧
      armed.cnt < armed.arr ∧ { armed with cnt := 9#32 }.cnt = armed.arr ∧
      armed.arr < { armed with cnt := 10#32 }.cnt := by decide

/-- IntervalForDistance: both ends of both ranges. -/
theorem witness_interval :
    -(2 ^ 31) ≤ (-(2 ^ 31) : Int) ∧ (1 : Int) ≤ 1 ∧ (1 : Int) < 2 ∧ (2 ^ 31 - 1 : Int) < 2 ^ 31 ∧
      intervalFor (-(2 ^ 31)) = 1#32 ∧ intervalFor 1 = 1#32 ∧ intervalFor 2 = 2#32 ∧
      intervalFor (2 ^ 31 - 1) = 0x7FFFFFFF#32 := by decide

/-- InterruptOperationCompletes; InterruptFiresExactlyTheDue with a deadline that is just due. -/
theorem witness_interrupt :
    pending.CoreInv ∧ pending.Inv ∧ pending.Ordered ∧ pending.ServiceWindow ∧
      pending.uif = true ∧ pending.uie = true :=
  ⟨pending_coreInv, pending_inv, pairs (by decide), ⟨10#32, by decide, by decide, by decide⟩,
    by decide, by decide⟩
/-- The same with an overdue periodic task; the values after it are those of T6.3 e. -/
theorem witness_interrupt_overdue :
    overdue.Inv ∧ overdue.Ordered ∧ overdue.ServiceWindow ∧
      sdiff (overdue.record 1#4).nextFireUs overdue.serviceTick < 0 ∧
      seen (exec .onTimerUpdate overdue) (fun t =>
        (t.g, t.ready, (t.record 1#4).nextFireUs, t.sorted, t.arr)) =
        some (61#64, 0x2#32, 111#32, 0x10#64, 38#32) :=
  ⟨overdue_inv, pairs (by decide), ⟨50#32, by decide, by decide, by decide⟩, by decide, by decide⟩
theorem witness_interrupt_busy : busy.CoreInv ∧ busy.uif = true ∧ busy.uie = true ∧
    busy.isReady 2#4 = true := ⟨busy_coreInv, by decide, by decide, by decide⟩

/-- PromptServiceConservesTime: a TICK, and the interrupt once it is enabled. -/
theorem witness_prompt_tick :
    (withNext .tick armed).CoreInv ∧ (withNext .tick armed).started = true ∧
      (withNext .tick armed).promptInterrupt ∧ (withNext .tick armed).nextIs .tick ∧
      (nextOf (step (withNext .tick armed))).isSome = true := by
  refine ⟨by constructor <;> decide, by decide, fun h => absurd h (by decide), ?_, by decide⟩
  rw [nextIs_withNext (by decide)]
theorem witness_prompt_interrupt :
    (withNext .onTimerUpdate pending).CoreInv ∧
      (withNext .onTimerUpdate pending).promptInterrupt ∧
      ¬(withNext .onTimerUpdate pending).nextIs .tick ∧
      (nextOf (step (withNext .onTimerUpdate pending))).isSome = true := by
  refine ⟨by constructor <;> decide, fun _ => ?_, ?_, by decide⟩
  · rw [nextIs_withNext (by decide)]
  · rw [nextIs_withNext (by decide)]
    decide

/-- RunServesEveryInterrupt: a run that takes one interrupt, and the empty run. -/
theorem witness_run : armed.CoreInv ∧ armed.started = true ∧ armed.irqLine = false ∧
    seen (runPrompt 12 armed) (fun t => (t.g, t.cnt)) = some (10#64, 2#32) ∧
    nextOf (runPrompt 0 armed) = some armed := ⟨armed_coreInv, by decide, by decide, by decide, by decide⟩

/-- UpdateDrainStep: nothing ready; slots 0 and 15 as the lowest ready one. -/
theorem witness_update :
    armed.started = true ∧ armed.faulted = false ∧ armed.updActive = false ∧ armed.ready = 0#32 ∧
      { armed with ready := 0xFFFF#32 }.lowestReady 0#4 ∧
      { armed with ready := 0x8000#32 }.lowestReady 15#4 :=
  ⟨by decide, by decide, by decide, by decide, ⟨by decide, by decide⟩, by decide, by decide⟩

/-- CallbackReturnReleasesAndDrains: a one-shot returns, with more ready and with nothing. -/
theorem witness_cbReturn :
    busy.updActive = true ∧ (busy.record busy.updSlot).repeating = false ∧
      { busy with ready := clearBit busy.ready 1#4, free := setBit busy.free 1#4 }.lowestReady 0#4 ∧
      clearBit { busy with ready := 0#32 }.ready 1#4 = 0#32 :=
  ⟨by decide, by decide, ⟨by decide, by decide⟩, by decide⟩
/-- The same for a periodic task. -/
theorem witness_cbReturn_periodic :
    { armed with updActive := true }.updActive = true ∧
      ({ armed with updActive := true }.record 0#4).repeating = true ∧
      { armed with updActive := true }.ready = 0#32 := by decide

/-- ReusedRecordIsFreedWhileScheduled. -/
theorem witness_reused :
    reused.updActive = true ∧ reused.ready.extractLsb' 16 16 = 0#16 ∧
      (reused.record reused.updSlot).repeating = false ∧
      reused.isScheduled reused.updSlot = true := by decide

/-- OutputsOfEachOperation, WhoWritesWhat: every operation goes on somewhere. -/
theorem witness_outputs :
    (nextOf (exec .start State.reset)).isSome = true ∧
      (nextOf (exec (.registerTask 4#32 1#32) armed)).isSome = true ∧
      (nextOf (exec (.setTimeout 4#32 1#32) armed)).isSome = true ∧
      (nextOf (exec (.unregisterTask 0#16) armed)).isSome = true ∧
      (nextOf (exec (.cancelTimeout 0x10#16) oneShot)).isSome = true ∧
      (nextOf (exec .update armed)).isSome = true ∧
      (nextOf (exec .getGlobalTick armed)).isSome = true ∧
      (nextOf (exec .onTimerUpdate pending)).isSome = true ∧
      (nextOf (exec .cbReturn busy)).isSome = true ∧
      (nextOf (exec .tick armed)).isSome = true := by decide
/-- OutputsOfEachOperation: a response that is not OK. -/
theorem witness_outputs_refused :
    seen (exec .update busy) (fun t => t.outputs) =
      some (busy.outputs ++ [.response ⟨.refused, 0#64⟩]) := by decide
/-- WhoWritesWhat: a slot taken, a slot released, a slot made ready, a pending flag set and
cleared. -/
theorem witness_written :
    seen (exec (.setTimeout 4#32 1#32) armed) (fun t => (t.isFree 1#4, t.gen)) =
        some (false, 3#12) ∧
      seen (exec .cbReturn busy) (fun t => (t.isFree 1#4, t.updSlot)) = some (true, 0#4) ∧
      seen (exec .onTimerUpdate pending) (fun t => (t.isReady 0#4, t.uif)) = some (true, false) ∧
      seen (exec .tick { armed with cnt := 9#32 }) (fun t => (t.uif, t.cnt)) =
        some (true, 0#32) := by decide

/-- InsertThenRemoveRestores: into an empty index and into one with 15 entries. -/
theorem witness_insert_empty : idle.CoreInv ∧ idle.count.toNat < 16 ∧
    idle.isScheduled 15#4 = false := ⟨idle_coreInv, by decide, by decide⟩
theorem witness_insert_last :
    { overfull with sorted := 0x0123456789ABCDE#64, count := 15#5 }.CoreInv ∧
      { overfull with sorted := 0x0123456789ABCDE#64, count := 15#5 }.count.toNat < 16 ∧
      { overfull with sorted := 0x0123456789ABCDE#64, count := 15#5 }.isScheduled 15#4 = false :=
  ⟨by constructor <;> decide, by decide, by decide⟩

/-- InsertionKeepsDeadlineOrder. -/
theorem witness_insertion : three.count.toNat < 16 ∧
    (∀ p q, p < q → q < three.count.toNat → sdiff (deadlineAt three p) (deadlineAt three q) ≤ 0) ∧
    three.Within (three.record 2#4).nextFireUs :=
  ⟨by decide, pairs (by decide), 100#32, by decide, by decide⟩

/-- DetectorFindsTheSearchedPosition and HalvesInsertionAgrees: the edges of their ranges. -/
theorem witness_detector : 0 ≤ 16 ∧ 16 ≤ 16 ∧
    detectPosition 0xFEDCBA9876543210#64 16 15#4 = some 15 ∧
    detectPosition 0xFEDCBA9876543210#64 15 15#4 = none := by decide
theorem witness_halves :
    insertByHalves 0x0EDCBA9876543210#64 0 15#4 = 0xEDCBA9876543210F#64 ∧
      insertByHalves 0x0EDCBA9876543210#64 7 15#4 = 0xEDCBA987F6543210#64 ∧
      insertByHalves 0x0EDCBA9876543210#64 8 15#4 = 0xEDCBA98F76543210#64 ∧
      insertByHalves 0x0EDCBA9876543210#64 15 15#4 = 0xFEDCBA9876543210#64 := by decide

/-- HandleKindsNeverOverlap: the least and the greatest generation. -/
theorem witness_handles : (1#12).getLsbD 0 = true ∧ (4095#12).getLsbD 0 = true ∧
    oneShotHandle 1#12 0#4 = 0x10#16 ∧ oneShotHandle 4095#12 15#4 = 0xFFFF#16 := by decide

/-- EveryStepKeepsCoreInvariants, DutifulStepsKeepInvariants. -/
theorem witness_dutiful_step :
    (withNext (.registerTask 3#32 1#32) busy).Inv ∧
      (withNext (.registerTask 3#32 1#32) busy).hostKeepsDuty ∧
      (nextOf (step (withNext (.registerTask 3#32 1#32) busy))).isSome = true := by
  refine ⟨⟨by constructor <;> decide, by decide, by decide, pairs (by decide), by decide,
    by decide⟩, fun i hi => ?_, by decide⟩
  rw [nextIs_withNext (by decide)] at hi
  subst hi
  trivial
/-- A SET_TIMEOUT within the duty: the slot in flight is still occupied. -/
theorem witness_dutiful_setTimeout : callbackDuty busy (.setTimeout 3#32 1#32) := by
  simp only [callbackDuty]
  decide

/-- OperationsWithoutOverrunStayTimely: the interrupt, and a registration. -/
theorem witness_timely_interrupt : pending.Inv ∧ pending.Timely ∧
    seen (exec .onTimerUpdate pending) (fun t => t.g) =
      some (pending.g + programmedAdvance pending .onTimerUpdate) :=
  ⟨pending_inv, pending_timely, by decide⟩
theorem witness_timely_registration : two.Inv ∧ two.Timely ∧
    seen (exec (.setTimeout 7#32 1#32) two) (fun t => t.g) =
      some (two.g + programmedAdvance two (.setTimeout 7#32 1#32)) :=
  ⟨two_inv, two_timely, by decide⟩

/-- OperationsInOneWindowKeepOrder: a registration through the overrun path (T6.2 e), the late
interrupt after it, and a cancellation, which needs no window. -/
theorem witness_order_overrun :
    midInterval.Inv ∧ midInterval.Ordered ∧ windowDuty midInterval (.registerTask 50#32 0xCB1#32) ∧
      seen (exec (.registerTask 50#32 0xCB1#32) midInterval) (fun t =>
        (t.g, t.cnt, t.cur, t.sorted)) = some (60#64, 0#32, 1#32, 0x01#64) :=
  ⟨midInterval_inv, pairs (by decide), ⟨50#32, by decide, by decide⟩, by decide⟩
theorem witness_order_late :
    overdue.Inv ∧ overdue.Ordered ∧ windowDuty overdue .onTimerUpdate ∧
      windowDuty overdue (.unregisterTask 0#16) ∧
      (nextOf (exec .onTimerUpdate overdue)).isSome = true ∧
      (nextOf (exec (.unregisterTask 0#16) overdue)).isSome = true :=
  ⟨overdue_inv, pairs (by decide), ⟨50#32, by decide, by decide, by decide⟩, trivial, by decide,
    by decide⟩

/-- OnlyAFullIndexCanFault: the fault is reached, from a state with the core invariants. -/
theorem witness_full_index : (withNext (.registerTask 1#32 1#32) overfull).CoreInv ∧
    step (withNext (.registerTask 1#32 1#32) overfull) = .fault .indexFull :=
  ⟨by constructor <;> decide, rfl⟩

/-- StartedBlockIsIdleOrArmed: one of each. -/
theorem witness_idle_armed : idle.CoreInv ∧ idle.started = true ∧ idle.isIdle = true ∧
    armed.CoreInv ∧ armed.started = true ∧ armed.isArmed = true :=
  ⟨idle_coreInv, by decide, by decide, armed_coreInv, by decide, by decide⟩

/-- SlotLifecycleConditions: a slot in each condition. -/
theorem witness_conditions : busy.Inv ∧
    busy.slotCondition 0#4 = .scheduledAndReady ∧ busy.slotCondition 1#4 = .inFlight ∧
      busy.slotCondition 2#4 = .ready ∧ busy.slotCondition 3#4 = .free ∧
      armed.slotCondition 0#4 = .scheduled :=
  ⟨busy_inv, by decide, by decide, by decide, by decide, by decide⟩

/-- UnspecifiedValuesAreNeverRead: two different states that agree on all the spec gives. -/
theorem witness_sameSpecified : armed.Inv ∧
    SameSpecified armed ({ armed with updSlot := 9#4 }.setRecord 7#4 ⟨1#32, 2#32, 3#32, 4#16, true⟩) ∧
    armed ≠ ({ armed with updSlot := 9#4 }.setRecord 7#4 ⟨1#32, 2#32, 3#32, 4#16, true⟩) :=
  ⟨armed_inv, by constructor <;> decide, by decide⟩

/-- The premises about a missing fault hold of a state with an operation to perform. -/
theorem witness_noFault : (withNext .tick armed).Inv :=
  ⟨by constructor <;> decide, by decide, by decide, pairs (by decide), by decide, by decide⟩

end Sys2Proof.Tests
end

/-! What the instructions do, instruction by instruction: one relation with a constructor per way an
operation can end in a next state, and the proof that `exec` ends in no other way. The proofs over
all operations split along these constructors. -/

namespace Sys2Proof.Machine

/-! ### The gate -/

theorem gateAccepts_start {s : State} :
    s.gateAccepts .start = true ↔ s.faulted = false ∧ s.started = false := by
  unfold State.gateAccepts
  split_ifs <;> simp_all

theorem gateAccepts_callable {s : State} :
    s.gateAccepts .callable = true ↔ s.faulted = false ∧ s.started = true := by
  unfold State.gateAccepts
  split_ifs <;> simp_all

theorem gateAccepts_update {s : State} :
    s.gateAccepts .update = true ↔
      s.faulted = false ∧ s.started = true ∧ s.updActive = false := by
  unfold State.gateAccepts
  split_ifs <;> simp_all

/-! ### The effects -/

/-- The registration of the given kind (43_scheduler_api.md R181, R182). -/
def registration : Bool → Micros → Token → Instr
  | true, p, cb => .registerTask p cb
  | false, p, cb => .setTimeout p cb

/-- The state START programs the timer in (43_scheduler_api.md R180). -/
def State.initialised (s : State) (v : Nat) : State :=
  { s with psc := v, cnt := 0#32, uif := false, uie := true, started := true }

/-- The state in which a registration inserts its slot: the slot taken, its record stored
(43_scheduler_api.md R183). -/
def State.registering (s : State) (p : Micros) (cb : Token) (rep : Bool) (j : Slot) : State :=
  storeRegistration { s with free := clearBit s.free j } (clampPeriod p) cb rep j

/-- The ways an operation can end in a next state. -/
inductive Effect (s : State) : Instr → State → Prop
  /-- A command answered without effect: refused, failed, or GET_GLOBAL_TICK. -/
  | answered {i : Instr} {st : Status} {v : BitVec 64} (hi : i.source = .commandPort) :
      Effect s i (s.respond st v)
  /-- START on a platform with an invalid clock. -/
  | configFault (hs : s.started = false) : Effect s .start (raiseConfigFault s)
  /-- START on a platform with a valid clock. -/
  | started {v : Nat} {u : State} (hs : s.started = false) (hf : s.faulted = false)
      (hu : scheduleNextInterval (s.initialised v) = .ok u) :
      Effect s .start (u.respond .ok 0#64)
  /-- A registration that takes slot `j`. -/
  | registered {rep : Bool} {p : Micros} {cb : Token} {j : Slot} {s2 u : State} {v : BitVec 64}
      (hs : s.started = true) (hf : s.faulted = false) (hv : registrationValid p cb = true)
      (hj : s.isFree j = true) (hi : insertSorted j (s.registering p cb rep j) = .ok s2)
      (hu : scheduleNextInterval s2 = .ok u) :
      Effect s (registration rep p cb) (u.respond .ok v)
  /-- A cancellation that removes slot `j`. -/
  | removed {i : Instr} {j : Slot} {u : State}
      (hi : ∃ id, i = .unregisterTask id ∨ i = .cancelTimeout id)
      (hs : s.started = true) (hf : s.faulted = false) (hj : s.isFree j = false)
      (hu : scheduleNextInterval (releaseSlot j (removeSorted j s)) = .ok u) :
      Effect s i (u.respond .ok 1#64)
  /-- UPDATE. -/
  | drained {t : State} (hs : s.started = true) (ha : s.updActive = false)
      (ht : drainStep s = .ok t) : Effect s .update t
  /-- CB_RETURN. -/
  | returned {t : State} (ha : s.updActive = true) (ht : drainStep (finishCallback s) = .ok t) :
      Effect s .cbReturn t
  /-- ON_TIMER_UPDATE. -/
  | interrupted {u t : State} (hf : s.uif = true) (he : s.uie = true)
      (hu : fireLoop 16 (advanceTick (acknowledgeUpdate s)) = .ok u)
      (ht : scheduleNextInterval u = .ok t) : Effect s .onTimerUpdate t
  /-- TICK that reaches the reload value. -/
  | reloaded (hs : s.started = true) (hc : s.cen = true) (h : s.cnt = s.arr) :
      Effect s .tick { s with cnt := 0#32, uif := true }
  /-- TICK below the reload value. -/
  | counted (hs : s.started = true) (hc : s.cen = true) (h : s.cnt < s.arr) :
      Effect s .tick { s with cnt := s.cnt + 1#32 }

theorem effect_of_registration {s t : State} {rep : Bool} {p : Micros} {cb : Token}
    (h : hostCommand .callable (registrationBody p cb rep) s = .next t) :
    Effect s (registration rep p cb) t := by
  have hsrc : (registration rep p cb).source = .commandPort := by cases rep <;> rfl
  rcases hostCommand_next h with ⟨hg, hb⟩ | ⟨-, rfl⟩
  · obtain ⟨hf, hs⟩ := gateAccepts_callable.1 hg
    obtain ⟨id, u, hr, rfl⟩ := registrationBody_cases hb
    rcases registerCommon_cases hr with ⟨-, -, rfl⟩ | ⟨j, s2, hv, hj, hi, hu, -⟩
    · exact .answered hsrc
    · exact .registered hs hf hv hj hi hu
  · exact .answered hsrc

theorem effect_of_removal {s t : State} {checks : State → Bool} {id : Handle} {i : Instr}
    (hi : i = .unregisterTask id ∨ i = .cancelTimeout id)
    (hc : checks s = true → s.isFree (handleSlot id) = false)
    (h : hostCommand .callable (fun s => removalBody (checks s) (handleSlot id) s) s = .next t) :
    Effect s i t := by
  have hsrc : i.source = .commandPort := by rcases hi with rfl | rfl <;> rfl
  rcases hostCommand_next h with ⟨hg, hb⟩ | ⟨-, rfl⟩
  · obtain ⟨hf, hs⟩ := gateAccepts_callable.1 hg
    rcases removalBody_cases hb with ⟨-, rfl⟩ | ⟨u, hk, hu, rfl⟩
    · exact .answered hsrc
    · exact .removed ⟨id, hi⟩ hs hf (hc hk) hu
  · exact .answered hsrc

/-- `exec` ends in a next state in one of the listed ways. -/
theorem effect_of_exec {s t : State} {i : Instr} (h : exec i s = .next t) : Effect s i t := by
  cases i with
  | start =>
    rcases hostCommand_next h with ⟨hg, hb⟩ | ⟨-, rfl⟩
    · obtain ⟨hf, hs⟩ := gateAccepts_start.1 hg
      rcases startBody_cases hb with ⟨-, rfl⟩ | ⟨v, u, -, hu, rfl⟩
      · exact .configFault hs
      · exact .started hs hf hu
    · exact .answered rfl
  | registerTask p cb => exact effect_of_registration (rep := true) h
  | setTimeout p cb => exact effect_of_registration (rep := false) h
  | unregisterTask id =>
    refine effect_of_removal (.inl rfl) (fun hc => ?_) h
    simp only [unregisterChecks, Bool.and_eq_true, Bool.not_eq_true'] at hc
    exact hc.2
  | cancelTimeout id =>
    refine effect_of_removal (.inr rfl) (fun hc => ?_) h
    simp only [cancelChecks, Bool.and_eq_true, Bool.not_eq_true'] at hc
    exact hc.1.1
  | update =>
    rcases hostCommand_next h with ⟨hg, hb⟩ | ⟨-, rfl⟩
    · obtain ⟨-, hs, ha⟩ := gateAccepts_update.1 hg
      exact .drained hs ha hb
    · exact .answered rfl
  | getGlobalTick =>
    rcases hostCommand_next (c := .callable) (body := fun s => .ok (s.respond .ok s.g)) h
      with ⟨-, hb⟩ | ⟨-, rfl⟩
    · cases hb
      exact .answered rfl
    · exact .answered rfl
  | onTimerUpdate =>
    obtain ⟨he, hb⟩ := environmentEvent_next h
    obtain ⟨u, hu, ht⟩ := onTimerUpdate_cases hb
    simp only [State.interruptEnabled, State.irqLine, Bool.and_eq_true] at he
    exact .interrupted he.1 he.2 hu ht
  | cbReturn =>
    obtain ⟨he, hb⟩ := environmentEvent_next h
    exact .returned he hb
  | tick =>
    obtain ⟨he, hb⟩ := environmentEvent_next h
    simp only [State.tickEnabled, Bool.and_eq_true] at he
    obtain ⟨⟨hs, -⟩, hc⟩ := he
    rcases countTick_cases hb with ⟨hk, rfl⟩ | ⟨hk, rfl⟩
    · exact .reloaded hs hc hk
    · exact .counted hs hc hk

end Sys2Proof.Machine

/-! The reasoning rules for the bitmaps, the index, the records and the firing loop that the
invariants need: what a set or a cleared bit leaves of the high half, what a removal leaves of the
order of positions, what an insertion, a firing and the firing loop leave unchanged. -/

namespace Sys2Proof.Machine

/-! ### Bitmaps -/

theorem setBit_high (v : Bitmap) (i : Slot) :
    (setBit v i).extractLsb' 16 16 = v.extractLsb' 16 16 := by
  have hi := slot_toNat_lt i
  apply BitVec.eq_of_getLsbD_eq
  intro k hk
  simp [setBit, hk, BitVec.getLsbD_extractLsb', BitVec.getLsbD_one,
    show ¬ 16 + k < i.toNat by omega, show ¬ 16 + k - i.toNat = 0 by omega,
    -BitVec.getLsbD_eq_getElem]

theorem clearBit_high (v : Bitmap) (i : Slot) :
    (clearBit v i).extractLsb' 16 16 = v.extractLsb' 16 16 := by
  have hi := slot_toNat_lt i
  apply BitVec.eq_of_getLsbD_eq
  intro k hk
  simp [clearBit, hk, BitVec.getLsbD_extractLsb', BitVec.getLsbD_one,
    show ¬ 16 + k < i.toNat by omega, show ¬ 16 + k - i.toNat = 0 by omega,
    show 16 + k < 32 by omega, -BitVec.getLsbD_eq_getElem]

/-! ### Removal from the index -/

theorem removeSorted_eq (i : Slot) (s : State) :
    removeSorted i s = { s with
      sorted := (removeSorted i s).sorted, count := (removeSorted i s).count } := by
  unfold removeSorted
  split <;> rfl

@[simp] theorem removeSorted_record (i j : Slot) (s : State) :
    (removeSorted i s).record j = s.record j := by
  rw [removeSorted_eq]; rfl

@[simp] theorem removeSorted_free (i : Slot) (s : State) : (removeSorted i s).free = s.free := by
  rw [removeSorted_eq]

@[simp] theorem removeSorted_ready (i : Slot) (s : State) :
    (removeSorted i s).ready = s.ready := by
  rw [removeSorted_eq]

@[simp] theorem isFree_removeSorted (i j : Slot) (s : State) :
    (removeSorted i s).isFree j = s.isFree j := by
  simp [State.isFree]

@[simp] theorem isReady_removeSorted (i j : Slot) (s : State) :
    (removeSorted i s).isReady j = s.isReady j := by
  simp [State.isReady]

@[simp] theorem removeSorted_gen (i : Slot) (s : State) : (removeSorted i s).gen = s.gen := by
  rw [removeSorted_eq]

@[simp] theorem removeSorted_g (i : Slot) (s : State) : (removeSorted i s).g = s.g := by
  rw [removeSorted_eq]

@[simp] theorem isInFlight_removeSorted (i j : Slot) (s : State) :
    (removeSorted i s).isInFlight j = s.isInFlight j := by
  rw [removeSorted_eq]; rfl

/-- What is left after a removal stands in the order it had: position `q` holds what stood at
position `m q`, for a strictly increasing `m`. -/
theorem removeSorted_positions (i : Slot) {s : State} (h16 : s.count.toNat ≤ 16) :
    ∃ m : Nat → Nat, (∀ a b, a < b → m a < m b) ∧
      ∀ q < (removeSorted i s).count.toNat,
        m q < s.count.toNat ∧ nib (removeSorted i s).sorted q = nib s.sorted (m q) := by
  rcases removeSorted_cases i s with ⟨-, e⟩ | ⟨p, hp, -, -, e⟩
  · exact ⟨id, fun _ _ h => h, fun q hq => ⟨by rwa [e] at hq, by rw [e]; rfl⟩⟩
  · refine ⟨fun q => if q < p then q else q + 1, fun a b hab => by grind, fun q hq => ?_⟩
    rw [e] at hq ⊢
    simp only [count_sub_one s.count (by omega)] at hq
    rw [nib_removeNibble _ _ _ (by omega)]
    grind

theorem isScheduled_of_removeSorted {i j : Slot} {s : State} (h16 : s.count.toNat ≤ 16)
    (h : (removeSorted i s).isScheduled j = true) : s.isScheduled j = true := by
  obtain ⟨m, -, hm⟩ := removeSorted_positions i h16
  obtain ⟨q, hq, rfl⟩ := (isScheduled_iff _ j).1 h
  obtain ⟨hlt, e⟩ := hm q hq
  rw [e]
  exact isScheduled_nib s hlt

/-- A pop is the removal of the slot at the front. -/
theorem removeSorted_front {s : State} (hc : s.count ≠ 0#5) :
    removeSorted (nib s.sorted 0) s =
      { s with sorted := s.sorted >>> 4, count := s.count - 1#5 } := by
  have hf : findPosition s.sorted s.count.toNat (nib s.sorted 0) = some 0 :=
    (findPosition_eq_some_iff _ _ _ _).2
      ⟨rfl, (count_ne_zero_iff s).1 hc, fun q hq => absurd hq (by omega)⟩
  have hr : removeNibble s.sorted 0 = s.sorted >>> 4 :=
    packed_ext fun p _ => by rw [nib_removeNibble _ _ _ (by omega), nib_pop, if_neg (by omega)]
  simp only [removeSorted, hf, hr]

/-! ### Insertion into the index -/

theorem insertSorted_eq {s t : State} {i : Slot} (h : insertSorted i s = .ok t) :
    t = { s with sorted := t.sorted, count := t.count } := by
  obtain ⟨-, rfl⟩ := insertSorted_cases h
  rfl

theorem insertSorted_record {s t : State} {i : Slot} (h : insertSorted i s = .ok t) (j : Slot) :
    t.record j = s.record j := by
  rw [insertSorted_eq h]; rfl

/-! ### Firing -/

/-- The slot at the front of the index. -/
def State.front (s : State) : Slot := nib s.sorted 0

/-- The front taken out of the index and marked ready (44_isr_and_drain.md R210). -/
def State.fired (s : State) : State :=
  { s with
    sorted := s.sorted >>> 4, count := s.count - 1#5, ready := setBit s.ready s.front }

/-- The record of a periodic task re-armed from the current tick (44_isr_and_drain.md R210). -/
def State.rearmedRecord (s : State) (i : Slot) : TaskRecord :=
  { s.record i with nextFireUs := deadlineAfter s.g32 (s.record i).periodUs }

theorem fired_eq {s : State} (hc : s.count ≠ 0#5) :
    s.fired = { removeSorted s.front s with ready := setBit s.ready s.front } := by
  rw [State.front, removeSorted_front hc]
  rfl

theorem isScheduled_of_fired {s : State} (h16 : s.count.toNat ≤ 16) (hc : s.count ≠ 0#5)
    {j : Slot} (h : s.fired.isScheduled j = true) : s.isScheduled j = true := by
  rw [fired_eq hc] at h
  exact isScheduled_of_removeSorted h16 h

/-- One iteration of the firing loop, in the words above. -/
theorem fireFront_fired {s t : State} (h : fireFront s = .ok t) :
    s.count ≠ 0#5 ∧
      (((s.record s.front).repeating = false ∧ t = s.fired) ∨
        ((s.record s.front).repeating = true ∧
          insertSorted s.front (s.fired.setRecord s.front (s.rearmedRecord s.front)) = .ok t)) :=
  fireFront_cases h

/-- One iteration writes records, `ready` and the index, and nothing else. -/
theorem fireFront_eq {s t : State} (h : fireFront s = .ok t) :
    t = { s with tasks := t.tasks, ready := setBit s.ready s.front, sorted := t.sorted,
                 count := t.count } := by
  rcases (fireFront_fired h).2 with ⟨-, rfl⟩ | ⟨-, hi⟩
  · rfl
  · rw [insertSorted_eq hi]
    rfl

/-- The records after one iteration: only the front's deadline moves, and only if it repeats. -/
theorem fireFront_record {s t : State} (h : fireFront s = .ok t) (j : Slot) :
    t.record j = if s.front = j ∧ (s.record s.front).repeating = true
      then s.rearmedRecord s.front else s.record j := by
  rcases (fireFront_fired h).2 with ⟨hr, rfl⟩ | ⟨hr, hi⟩
  · simp only [hr, Bool.false_eq_true, and_false, if_false]
    rfl
  · rw [insertSorted_record hi, State.setRecord_record]
    simp only [hr, and_true]
    rfl

theorem fireFront_repeating {s t : State} (h : fireFront s = .ok t) (j : Slot) :
    (t.record j).repeating = (s.record j).repeating := by
  rw [fireFront_record h]
  split
  · rename_i hj
    rw [← hj.1]; rfl
  · rfl

/-- The index after one iteration: the front leaves it unless it repeats. -/
theorem fireFront_isScheduled {s t : State} (h : fireFront s = .ok t) (j : Slot) :
    t.isScheduled j = ((removeSorted s.front s).isScheduled j ||
      (decide (s.front = j) && (s.record s.front).repeating)) := by
  obtain ⟨hc, hk⟩ := fireFront_fired h
  have hs : s.fired.isScheduled j = (removeSorted s.front s).isScheduled j := by
    rw [fired_eq hc]; rfl
  rcases hk with ⟨hr, rfl⟩ | ⟨hr, hi⟩
  · simp [hr, hs]
  · rw [isScheduled_insertSorted hi, hr, Bool.and_true, ← hs]
    rfl

theorem isScheduled_front {s : State} (hc : s.count ≠ 0#5) : s.isScheduled s.front = true :=
  isScheduled_nib s ((count_ne_zero_iff s).1 hc)

theorem isScheduled_of_fireFront {s t : State} (h16 : s.count.toNat ≤ 16)
    (h : fireFront s = .ok t) {j : Slot} (hj : t.isScheduled j = true) :
    s.isScheduled j = true := by
  rw [fireFront_isScheduled h, Bool.or_eq_true, Bool.and_eq_true, decide_eq_true_iff] at hj
  rcases hj with hj | ⟨rfl, -⟩
  · exact isScheduled_of_removeSorted h16 hj
  · exact isScheduled_front (fireFront_fired h).1

/-- The firing loop writes records, `ready` and the index, and nothing else. -/
theorem fireLoop_eq {fuel : Nat} {s t : State} (h : fireLoop fuel s = .ok t) :
    t = { s with tasks := t.tasks, ready := t.ready, sorted := t.sorted, count := t.count } :=
  (fireLoop_induction
    (P := fun t => t = { s with
      tasks := t.tasks, ready := t.ready, sorted := t.sorted, count := t.count })
    (fun u v hu _ hv => by rw [fireFront_eq hv, hu]) fuel s t rfl h).1

end Sys2Proof.Machine

/-! The core invariants (10_state.md R44, V1, V5, V8 to V11). They are cut in two: what holds of
the bitmaps, the index, the periods and the generation, which each micro-operation keeps; and what
ties the timer to them, which every run of the reload controller establishes anew. -/

namespace Sys2Proof.Machine

/-! ### The stores -/

/-- A stored period is 1 to 2^31 - 1 (10_state.md R23). -/
def TaskRecord.periodOk (r : TaskRecord) : Prop :=
  1 ≤ r.periodUs.toNat ∧ r.periodUs.toNat < 2 ^ 31

/-- The part of the core invariants that the timer has no share in: V1, V5, V10, the bound of V11
and the range of stored periods. -/
structure State.StoreInv (s : State) : Prop where
  freeHigh : s.free.extractLsb' 16 16 = 0#16
  readyHigh : s.ready.extractLsb' 16 16 = 0#16
  countLe : s.count.toNat ≤ 16
  unusedZero : ∀ p < 16, s.count.toNat ≤ p → nib s.sorted p = 0#4
  periodRange : ∀ i, s.isScheduled i = true → (s.record i).periodOk
  genOdd : s.gen.getLsbD 0 = true

theorem State.CoreInv.toStoreInv {s : State} (h : s.CoreInv) : s.StoreInv :=
  ⟨h.freeHigh, h.readyHigh, h.countLe, h.unusedZero, h.periodRange, h.genOdd⟩

namespace State.StoreInv

variable {s t : State}

/-- The stores do not share in the timer, the latches, the schedule and the outputs: a state that
differs from `s` there has their invariants too. -/
theorem of_eq (h : s.StoreInv)
    (e : t = { t with tasks := s.tasks, free := s.free, ready := s.ready, sorted := s.sorted,
                      count := s.count, gen := s.gen }) : t.StoreInv := by
  rw [e]
  exact { h with }

theorem withFree (h : s.StoreInv) {v : Bitmap} (hv : v.extractLsb' 16 16 = 0#16) :
    ({ s with free := v } : State).StoreInv :=
  { h with freeHigh := hv }

theorem withReady (h : s.StoreInv) {v : Bitmap} (hv : v.extractLsb' 16 16 = 0#16) :
    ({ s with ready := v } : State).StoreInv :=
  { h with readyHigh := hv }

theorem setRecord (h : s.StoreInv) (i : Slot) {r : TaskRecord} (hr : r.periodOk) :
    (s.setRecord i r).StoreInv := by
  refine ⟨h.freeHigh, h.readyHigh, h.countLe, h.unusedZero, fun j hj => ?_, h.genOdd⟩
  rw [State.setRecord_record]
  split
  · exact hr
  · exact h.periodRange j hj

theorem releaseSlot (h : s.StoreInv) (i : Slot) : (releaseSlot i s).StoreInv :=
  (h.withReady ((clearBit_high _ i).trans h.readyHigh)).withFree
    ((setBit_high _ i).trans h.freeHigh)

theorem insertSorted (h : s.StoreInv) {i : Slot} (hr : (s.record i).periodOk)
    (hi : insertSorted i s = .ok t) : t.StoreInv := by
  obtain ⟨hc, -⟩ := insertSorted_cases hi
  obtain ⟨p, hp, hn, -, -, hq⟩ := insertSorted_nib hi
  have e := insertSorted_eq hi
  refine ⟨by rw [e]; exact h.freeHigh, by rw [e]; exact h.readyHigh, by omega,
    fun q hq1 hq2 => ?_, fun j hj => ?_, by rw [e]; exact h.genOdd⟩
  · rw [hq q hq1, if_neg (by omega), if_neg (by omega)]
    exact h.unusedZero _ (by omega) (by omega)
  · rw [insertSorted_record hi]
    rw [isScheduled_insertSorted hi, Bool.or_eq_true, decide_eq_true_iff] at hj
    rcases hj with hj | rfl
    · exact h.periodRange j hj
    · exact hr

theorem removeSorted (h : s.StoreInv) (i : Slot) : (removeSorted i s).StoreInv := by
  refine ⟨by simpa using h.freeHigh, by simpa using h.readyHigh, ?_, ?_, fun j hj => ?_,
    by simpa using h.genOdd⟩
  · rcases removeSorted_cases i s with ⟨-, e⟩ | ⟨p, hp, -, -, e⟩ <;> rw [e]
    · exact h.countLe
    · have := h.countLe
      simp only [count_sub_one s.count (by omega)]
      omega
  · rcases removeSorted_cases i s with ⟨-, e⟩ | ⟨p, hp, -, -, e⟩ <;> rw [e]
    · exact h.unusedZero
    · intro q hq1 hq2
      have hcl := h.countLe
      simp only [count_sub_one s.count (by omega)] at hq2
      rw [nib_removeNibble _ _ _ (by omega), if_neg (by omega)]
      rcases Nat.lt_or_ge (q + 1) 16 with h1 | h1
      · exact h.unusedZero _ h1 (by omega)
      · exact nib_of_ge _ _ h1
  · rw [removeSorted_record]
    exact h.periodRange j (isScheduled_of_removeSorted h.countLe hj)

theorem reprogrammed (h : s.StoreInv) (hn : scheduleNextInterval s = .ok t) : t.StoreInv :=
  h.of_eq (by obtain ⟨-, e⟩ := scheduleNextInterval_cases hn; rw [e])

theorem fired (h : s.StoreInv) (hc : s.count ≠ 0#5) : s.fired.StoreInv := by
  rw [fired_eq hc]
  exact (h.removeSorted s.front).withReady ((setBit_high _ _).trans h.readyHigh)

theorem fireFront (h : s.StoreInv) (hf : fireFront s = .ok t) : t.StoreInv := by
  obtain ⟨hc, ⟨-, rfl⟩ | ⟨-, hi⟩⟩ := fireFront_fired hf
  · exact h.fired hc
  · have hr : (s.rearmedRecord s.front).periodOk := h.periodRange _ (isScheduled_front hc)
    exact ((h.fired hc).setRecord s.front hr).insertSorted
      (by rw [State.setRecord_record_self]; exact hr) hi

/-- The firing loop of the interrupt operation keeps the stores. -/
theorem serviced (h : s.StoreInv)
    (hu : fireLoop 16 (advanceTick (acknowledgeUpdate s)) = .ok t) : t.StoreInv :=
  (fireLoop_induction (P := State.StoreInv) (fun _ _ hs _ hf => hs.fireFront hf) _ _ _
    (h.of_eq rfl) hu).1

theorem drainStep (h : s.StoreInv) (hd : drainStep s = .ok t) : t.StoreInv := by
  rcases drainStep_cases hd with ⟨-, rfl⟩ | ⟨i, -, rfl⟩
  · exact h.of_eq rfl
  · exact (h.withReady ((clearBit_high _ i).trans h.readyHigh)).of_eq rfl

theorem finishCallback (h : s.StoreInv) : (finishCallback s).StoreInv := by
  rcases finishCallback_cases s with ⟨-, e⟩ | ⟨-, e⟩ <;> rw [e]
  · exact h
  · exact h.releaseSlot _

end State.StoreInv

/-! ### Registration -/

theorem clampPeriod_range {p : Micros} {cb : Token} (hv : registrationValid p cb = true) :
    1 ≤ (clampPeriod p).toNat ∧ (clampPeriod p).toNat < 2 ^ 31 := by
  simp only [registrationValid, Bool.and_eq_true, decide_eq_true_iff, Config.kMaxIntervalUs,
    BitVec.lt_def] at hv
  refine ⟨?_, hv.2⟩
  unfold clampPeriod
  split
  · decide
  · rename_i h0
    bv_omega

theorem nextGeneration_odd {k : Generation} (h : k.getLsbD 0 = true) :
    (nextGeneration k).getLsbD 0 = true := by
  rw [← BitVec.testBit_toNat, Nat.testBit_zero, decide_eq_true_iff] at h ⊢
  simp only [nextGeneration, Config.generationStep, BitVec.toNat_add, BitVec.toNat_ofNat]
  omega

/-- The record a registration stores. -/
theorem registering_record (s : State) (p : Micros) (cb : Token) (rep : Bool) (j k : Slot) :
    (s.registering p cb rep j).record k =
      if j = k then newRecord s (clampPeriod p) cb rep j else s.record k :=
  State.setRecord_record { s with free := clearBit s.free j } j k _

theorem State.StoreInv.registering {s : State} (h : s.StoreInv) {p : Micros} {cb : Token}
    (rep : Bool) (hv : registrationValid p cb = true) (j : Slot) :
    (s.registering p cb rep j).StoreInv := by
  have hr : (newRecord s (clampPeriod p) cb rep j).periodOk := clampPeriod_range hv
  obtain ⟨hf, hy, hc, hu, hp, hg⟩ :=
    (h.withFree ((clearBit_high s.free j).trans h.freeHigh)).setRecord j hr
  refine ⟨hf, hy, hc, hu, hp, ?_⟩
  cases rep with
  | true => exact hg
  | false => exact nextGeneration_odd hg

/-- A registration keeps the stores. -/
theorem State.StoreInv.registered {s s2 : State} (h : s.StoreInv) {p : Micros} {cb : Token}
    {rep : Bool} {j : Slot} (hv : registrationValid p cb = true)
    (hi : Machine.insertSorted j (s.registering p cb rep j) = .ok s2) : s2.StoreInv :=
  (h.registering rep hv j).insertSorted
    (by rw [registering_record, if_pos rfl]; exact clampPeriod_range hv) hi

/-! ### The timer -/

/-- The interval the reload controller computes lies in the range of `cur` and is not 0. -/
theorem frontInterval_range (s : State) :
    1 ≤ s.frontInterval.toNat ∧ s.frontInterval.toNat < 2 ^ 31 :=
  ⟨intervalFor_sdiff_pos _ _, intervalFor_sdiff_lt _ _⟩

/-- Whatever the timer was before, a run of the reload controller in a started block establishes
the core invariants from those of the stores. -/
theorem coreInv_of_reprogrammed {s t : State} (h : s.StoreInv)
    (hn : scheduleNextInterval s = .ok t) (hs : s.started = true) (hf : s.faulted = false)
    (he : s.uie = true) : t.CoreInv := by
  have ht := h.reprogrammed hn
  obtain ⟨hp, e⟩ := scheduleNextInterval_cases hn
  have hs' : t.started = true := by rw [e]; exact hs
  have hf' : t.faulted = false := by rw [e]; exact hf
  have he' : t.uie = true := by rw [e]; exact he
  have timer : t.cur.toNat < 2 ^ 31 ∧ (t.cen = true ↔ t.count ≠ 0#5) ∧
      (t.cur = 0#32 ↔ t.count = 0#5) ∧ (t.cen = true → t.arr = t.cur - 1#32 ∧ t.cnt ≤ t.arr) := by
    unfold TimerReprogrammed at hp
    split at hp
    · rename_i hc
      obtain ⟨hcen, hcur, -⟩ := hp
      simp [hc, hcen, hcur]
    · rename_i hc
      obtain ⟨hcen, hcur, harr, hk⟩ := hp
      have hr := frontInterval_range t
      have h0 : t.cur ≠ 0#32 := by rw [hcur]; intro h0; simp [h0] at hr
      refine ⟨by rw [hcur]; exact hr.2, by simp [hcen, hc], by simp [hc, h0],
        fun _ => ⟨harr, ?_⟩⟩
      rcases hk with ⟨hle, hcnt, hg⟩ | ⟨-, hcnt, -⟩
      · rw [harr, hcnt, hcur, State.frontInterval, State.g32, hg]
        exact hle
      · rw [hcnt]
        bv_omega
  obtain ⟨hcur, hcen, hidle, hreload⟩ := timer
  exact ⟨ht.freeHigh, ht.readyHigh, ht.countLe, ht.unusedZero, ht.periodRange, hcur, ht.genOdd,
    fun _ => hcen, fun _ => hidle, hreload, fun h0 => absurd h0 (by simp [hs']), fun _ => he',
    fun _ => hf'⟩

/-! ### Every operation -/

/-- The schedule and the outputs have no share in the core invariants. -/
theorem State.CoreInv.withStreams {s : State} (h : s.CoreInv) (xs : List Stimulus)
    (os : List Output) : ({ s with stimuli := xs, outputs := os } : State).CoreInv :=
  { h with }

/-- The core invariants hold in a started block whose stores are in order and whose timer and
control bits are those of a state that has them. -/
theorem State.CoreInv.of_stores {s t : State} (h : s.CoreInv) (hs : s.started = true)
    (ht : t.StoreInv)
    (e : t = { s with
      tasks := t.tasks, free := t.free, ready := t.ready, gen := t.gen
      updActive := t.updActive, updSlot := t.updSlot, outputs := t.outputs }) : t.CoreInv := by
  obtain ⟨hf, hr, hc, hu, hp, hg⟩ := ht
  rw [e] at hf hr hc hu hp hg ⊢
  exact ⟨hf, hr, hc, hu, hp, h.curRange, hg, h.armedCount, h.idleCur, h.reload,
    fun h0 => absurd hs (Bool.eq_false_iff.1 h0), h.interruptOn, h.notFaulted⟩

/-- A drain step writes `ready`, the latches and the outputs, and nothing else. -/
theorem drainStep_eq {s t : State} (h : drainStep s = .ok t) :
    t = { s with ready := t.ready, updSlot := t.updSlot, updActive := t.updActive,
                 outputs := t.outputs } := by
  rcases drainStep_cases h with ⟨-, rfl⟩ | ⟨i, -, rfl⟩ <;> rfl

/-- The end of a callback writes the two bitmaps, and nothing else. -/
theorem finishCallback_eq (s : State) :
    finishCallback s = { s with
      ready := (finishCallback s).ready, free := (finishCallback s).free } := by
  unfold finishCallback
  split <;> rfl

theorem State.CoreInv.drainStep {s t : State} (h : s.CoreInv) (hs : s.started = true)
    (hd : drainStep s = .ok t) : t.CoreInv :=
  h.of_stores hs (h.toStoreInv.drainStep hd)
    (by rcases drainStep_cases hd with ⟨-, rfl⟩ | ⟨i, -, rfl⟩ <;> rfl)

theorem State.CoreInv.finishCallback {s : State} (h : s.CoreInv) (hs : s.started = true) :
    (finishCallback s).CoreInv :=
  h.of_stores hs h.toStoreInv.finishCallback
    (by unfold Machine.finishCallback; split <;> rfl)

/-- No callback is in flight before START. -/
theorem State.CoreInv.started_of_active {s : State} (h : s.CoreInv) (ha : s.updActive = true) :
    s.started = true := by
  by_contra hs
  obtain ⟨-, -, -, -, -, -, hidle⟩ := h.beforeStart (by simpa using hs)
  exact Bool.eq_false_iff.1 hidle ha

/-- No update event is pending before START. -/
theorem State.CoreInv.started_of_uif {s : State} (h : s.CoreInv) (hf : s.uif = true) :
    s.started = true := by
  by_contra hs
  obtain ⟨-, -, -, -, hlow, -⟩ := h.beforeStart (by simpa using hs)
  exact Bool.eq_false_iff.1 hlow hf

/-- Every operation keeps the core invariants. -/
theorem Effect.keeps_coreInv {s t : State} {i : Instr} (he : Effect s i t) (h : s.CoreInv) :
    t.CoreInv := by
  have hst := h.toStoreInv
  cases he with
  | answered hi => exact h.withStreams _ _
  | configFault hs => exact { h with notFaulted := fun h1 => absurd h1 (Bool.eq_false_iff.1 hs) }
  | started hs hf hu =>
    exact (coreInv_of_reprogrammed (s := s.initialised _) (hst.of_eq rfl) hu rfl hf rfl).withStreams
      _ _
  | registered hs hf hv hj hi hu =>
    have e := insertSorted_eq hi
    refine (coreInv_of_reprogrammed (hst.registered hv hi) hu ?_ ?_ ?_).withStreams _ _ <;> rw [e]
    · exact hs
    · exact hf
    · exact h.interruptOn hs
  | @removed i j u hi hs hf hj hu =>
    refine (coreInv_of_reprogrammed ((hst.removeSorted j).releaseSlot j) hu ?_ ?_ ?_).withStreams
      _ _ <;> rw [removeSorted_eq]
    · exact hs
    · exact hf
    · exact h.interruptOn hs
  | drained hs ha ht => exact h.drainStep hs ht
  | returned ha ht =>
    have hs := h.started_of_active ha
    exact (h.finishCallback hs).drainStep (by rw [finishCallback_eq]; exact hs) ht
  | interrupted hf he hu ht =>
    have hs := h.started_of_uif hf
    have e := fireLoop_eq hu
    refine coreInv_of_reprogrammed (hst.serviced hu) ht ?_ ?_ ?_ <;> rw [e]
    · exact hs
    · exact h.notFaulted hs
    · exact he
  | reloaded hs hc hk =>
    exact { h with
      reload := fun _ => ⟨(h.reload hc).1, by bv_omega⟩
      beforeStart := fun h0 => absurd hs (Bool.eq_false_iff.1 h0) }
  | counted hs hc hk =>
    exact { h with
      reload := fun _ => ⟨(h.reload hc).1, by bv_omega⟩
      beforeStart := fun h0 => absurd hs (Bool.eq_false_iff.1 h0) }

/-- Settles O40: every way a step can end keeps the core invariants. -/
theorem everyStepKeepsCoreInvariants : Obligations.EveryStepKeepsCoreInvariants := by
  intro s t h hs
  rcases step_cases hs with ⟨-, rfl⟩ | ⟨i, -, he⟩ | ⟨x, -, -, rfl⟩
  · exact h
  · exact (effect_of_exec he).keeps_coreInv (h.withStreams _ _)
  · exact h.withStreams _ _

end Sys2Proof.Machine

/-! The invariants V2, V3, V4 and V6 (10_state.md R44): no slot twice in the index, and every slot
in a place that fits its record. A place is read slot by slot from five bits, so that each
operation is one computation on the bits of the slot it works on. -/

namespace Sys2Proof.Machine

/-- V2, V3 and V6 for one slot, from its bits: free, scheduled, ready, in flight, repeating. A free
slot is in neither store; an occupied periodic slot is scheduled; an occupied one-shot is in
exactly one of the index, `ready` and flight. -/
def placeOk (free scheduled ready inFlight repeating : Bool) : Bool :=
  if free then !scheduled && !ready
  else if repeating then scheduled
  else scheduled.toNat + ready.toNat + inFlight.toNat == 1

/-- The bits of slot `i` fit together. -/
def State.placed (s : State) (i : Slot) : Bool :=
  placeOk (s.isFree i) (s.isScheduled i) (s.isReady i) (s.isInFlight i) (s.record i).repeating

/-- V4, no slot number stands twice in the index. -/
def State.NoRepeat (s : State) : Prop :=
  ∀ p q, p < q → q < s.count.toNat → nib s.sorted p ≠ nib s.sorted q

/-- V2, V3, V4 and V6. -/
structure State.PlaceInv (s : State) : Prop where
  noRepeat : s.NoRepeat
  placed : ∀ i, s.placed i = true

/-- A scheduled slot that fires: a one-shot goes to `ready`, a periodic task is in both stores. -/
theorem placeOk_fired {free ready inFlight repeating : Bool}
    (h : placeOk free true ready inFlight repeating = true) :
    placeOk free repeating true inFlight repeating = true := by
  revert h; revert free ready inFlight repeating; decide

/-- A ready slot whose callback is dispatched. -/
theorem placeOk_drained {free scheduled repeating : Bool}
    (h : placeOk free scheduled true false repeating = true) :
    placeOk free scheduled false true repeating = true := by
  revert h; revert free scheduled repeating; decide

/-- `Inv` is the core invariants and the places. -/
theorem inv_iff {s : State} : s.Inv ↔ s.CoreInv ∧ s.PlaceInv := by
  constructor
  · intro h
    refine ⟨h.toCoreInv, h.noRepeat, fun i => ?_⟩
    have hfree := h.freeNotReady i
    have hocc := h.scheduledOccupied i
    have hper := h.periodicScheduled i
    have hone := h.oneShotPlace i
    unfold State.placed placeOk
    cases hf : s.isFree i <;> cases hr : (s.record i).repeating <;> simp_all
  · rintro ⟨h, hn, hp⟩
    refine ⟨h, fun i hi => ?_, fun i hi => ?_, hn, fun i hi hr => ?_, fun i hi hr => ?_⟩ <;>
      have := hp i <;> unfold State.placed placeOk at this <;> simp_all

/-! ### What the places say of one slot -/

namespace State.PlaceInv

variable {s t : State}

theorem not_scheduled_of_free (h : s.PlaceInv) {i : Slot} (hi : s.isFree i = true) :
    s.isScheduled i = false := by
  have := h.placed i
  simp_all [State.placed, placeOk]

theorem not_ready_of_free (h : s.PlaceInv) {i : Slot} (hi : s.isFree i = true) :
    s.isReady i = false := by
  have := h.placed i
  simp_all [State.placed, placeOk]

theorem occupied_of_scheduled (h : s.PlaceInv) {i : Slot} (hi : s.isScheduled i = true) :
    s.isFree i = false := by
  by_contra hf
  rw [h.not_scheduled_of_free (by simpa using hf)] at hi
  cases hi

theorem occupied_of_ready (h : s.PlaceInv) {i : Slot} (hi : s.isReady i = true) :
    s.isFree i = false := by
  by_contra hf
  rw [h.not_ready_of_free (by simpa using hf)] at hi
  cases hi

/-- A one-shot in flight is not in the index. -/
theorem not_scheduled_of_inFlight (h : s.PlaceInv) {i : Slot} (hi : s.isInFlight i = true)
    (hr : (s.record i).repeating = false) : s.isScheduled i = false := by
  have hp := h.placed i
  unfold State.placed placeOk at hp
  cases hf : s.isFree i <;> cases hs : s.isScheduled i <;> simp_all

/-! ### What keeps the places -/

/-- The places do not share in the generation, the timer, the schedule and the outputs: a state
that differs from `s` there is in place too. -/
theorem of_eq (h : s.PlaceInv)
    (e : t = { t with tasks := s.tasks, free := s.free, ready := s.ready, sorted := s.sorted,
                      count := s.count, updActive := s.updActive, updSlot := s.updSlot }) :
    t.PlaceInv := by
  rw [e]
  exact { h with }

theorem reprogrammed (h : s.PlaceInv) (hn : scheduleNextInterval s = .ok t) : t.PlaceInv :=
  h.of_eq (by obtain ⟨-, e⟩ := scheduleNextInterval_cases hn; rw [e])

end State.PlaceInv

/-- No slot stands twice after the insertion of an absent one. -/
theorem State.NoRepeat.insertSorted {s t : State} {i : Slot} (h : s.NoRepeat)
    (ha : s.isScheduled i = false) (hi : insertSorted i s = .ok t) : t.NoRepeat := by
  obtain ⟨hc, -⟩ := insertSorted_cases hi
  obtain ⟨k, hk, hn, -, -, hq⟩ := insertSorted_nib hi
  have habs : ∀ p < s.count.toNat, nib s.sorted p ≠ i := fun p hp e => by
    rw [(isScheduled_iff s i).2 ⟨p, hp, e⟩] at ha
    cases ha
  intro a b hab hb
  rw [hq a (by omega), hq b (by omega)]
  split_ifs with h1 h2 h3 h4 h5
  · exact h _ _ hab (by omega)
  · exact habs _ (by omega)
  · exact h _ _ (by omega) (by omega)
  · omega
  · omega
  · exact (habs _ (by omega)).symm
  · omega
  · omega
  · exact h _ _ (by omega) (by omega)

/-- No slot stands twice after a removal. -/
theorem State.NoRepeat.removeSorted {s : State} (h : s.NoRepeat) (h16 : s.count.toNat ≤ 16)
    (i : Slot) : (removeSorted i s).NoRepeat := by
  obtain ⟨m, hm, hpos⟩ := removeSorted_positions i h16
  intro p q hpq hq
  obtain ⟨-, ep⟩ := hpos p (by omega)
  obtain ⟨hlt, eq⟩ := hpos q hq
  rw [ep, eq]
  exact h _ _ (hm p q hpq) hlt

namespace State.PlaceInv

variable {s t : State}

/-- A registration puts its slot into the index. A one-shot must not land in the slot in flight,
which is what the duty H4 is for (70_reset_and_hazards.md R298). -/
theorem registered (h : s.PlaceInv) {p : Micros} {cb : Token} {rep : Bool} {j : Slot}
    (hj : s.isFree j = true) (hd : rep = false → s.isInFlight j = false)
    (hi : insertSorted j (s.registering p cb rep j) = .ok t) : t.PlaceInv := by
  have habs := h.not_scheduled_of_free hj
  have hrdy := h.not_ready_of_free hj
  have e := insertSorted_eq hi
  refine ⟨State.NoRepeat.insertSorted (s := s.registering p cb rep j) h.noRepeat habs hi,
    fun k => ?_⟩
  have hfree : t.isFree k = (s.isFree k && !decide (j = k)) := by
    rw [e]; exact bit_clearBit s.free j k
  have hsched : t.isScheduled k = (s.isScheduled k || decide (j = k)) :=
    isScheduled_insertSorted hi k
  have hready : t.isReady k = s.isReady k := by rw [e]; rfl
  have hflight : t.isInFlight k = s.isInFlight k := by rw [e]; rfl
  rw [State.placed, hfree, hsched, hready, hflight, insertSorted_record hi, registering_record]
  by_cases hk : j = k
  · subst hk
    cases rep with
    | true => simp [placeOk, newRecord]
    | false => simp [placeOk, newRecord, hrdy, habs, hd rfl]
  · simpa [hk, State.placed] using h.placed k

/-- A cancellation leaves its slot free and in neither store. -/
theorem removed (h : s.PlaceInv) (h16 : s.count.toNat ≤ 16) (i : Slot) :
    (releaseSlot i (removeSorted i s)).PlaceInv := by
  refine ⟨h.noRepeat.removeSorted h16 i, fun k => ?_⟩
  have hsched := isScheduled_removeSorted h16 h.noRepeat (i := i) k
  have hflight : (releaseSlot i (removeSorted i s)).isInFlight k = s.isInFlight k :=
    isInFlight_removeSorted i k s
  rw [State.placed, isFree_releaseSlot, isScheduled_releaseSlot, isReady_releaseSlot, hsched,
    hflight, releaseSlot_record, removeSorted_record, isFree_removeSorted, isReady_removeSorted]
  by_cases hk : i = k
  · simp [hk, placeOk]
  · simpa [hk, State.placed] using h.placed k

theorem noRepeat_fired (h : s.PlaceInv) (h16 : s.count.toNat ≤ 16) (hc : s.count ≠ 0#5) :
    s.fired.NoRepeat := by
  rw [fired_eq hc]
  exact h.noRepeat.removeSorted h16 s.front

/-- The front stood once in the index, so it has left it. -/
theorem front_not_scheduled_fired (h : s.PlaceInv) (h16 : s.count.toNat ≤ 16)
    (hc : s.count ≠ 0#5) : s.fired.isScheduled s.front = false := by
  rw [fired_eq hc]
  exact (isScheduled_removeSorted h16 h.noRepeat s.front).trans (by simp)

/-- One iteration of the firing loop moves a one-shot from the index to `ready` and leaves a
periodic task in the index. -/
theorem fireFront (h : s.PlaceInv) (h16 : s.count.toNat ≤ 16) (hf : fireFront s = .ok t) :
    t.PlaceInv := by
  obtain ⟨hc, hk⟩ := fireFront_fired hf
  have hnr := h.noRepeat_fired h16 hc
  refine ⟨?_, fun k => ?_⟩
  · rcases hk with ⟨-, rfl⟩ | ⟨-, hi⟩
    · exact hnr
    · exact State.NoRepeat.insertSorted
        (s := s.fired.setRecord s.front (s.rearmedRecord s.front)) hnr
        (h.front_not_scheduled_fired h16 hc) hi
  · have e := fireFront_eq hf
    have hfree : t.isFree k = s.isFree k := by rw [e]; rfl
    have hready : t.isReady k = (s.isReady k || decide (s.front = k)) := by
      rw [e]; exact bit_setBit s.ready s.front k
    have hflight : t.isInFlight k = s.isInFlight k := by rw [e]; rfl
    rw [State.placed, hfree, hready, hflight, fireFront_isScheduled hf,
      isScheduled_removeSorted h16 h.noRepeat, fireFront_repeating hf]
    have hp := h.placed k
    by_cases hk : s.front = k
    · have hs := isScheduled_front hc
      rw [hk] at hs ⊢
      rw [State.placed, hs] at hp
      simpa [hs] using placeOk_fired hp
    · simpa [hk, State.placed] using hp

/-- The firing loop of the interrupt operation keeps the places. -/
theorem serviced (h : s.PlaceInv) (hst : s.StoreInv)
    (hu : fireLoop 16 (advanceTick (acknowledgeUpdate s)) = .ok t) : t.PlaceInv :=
  (fireLoop_induction (P := fun u => u.StoreInv ∧ u.PlaceInv)
    (fun _ _ ⟨hst, hp⟩ _ hf => ⟨hst.fireFront hf, hp.fireFront hst.countLe hf⟩) _ _ _
    ⟨hst.of_eq rfl, h.of_eq rfl⟩ hu).1.2

/-- With no callback in flight, a drain step moves its slot from `ready` into flight. -/
theorem drainStep (h : s.PlaceInv) (ha : s.updActive = false) (hd : drainStep s = .ok t) :
    t.PlaceInv := by
  rcases drainStep_cases hd with ⟨-, rfl⟩ | ⟨i, hi, rfl⟩
  · exact h.of_eq (by rw [← ha]; rfl)
  · refine ⟨h.noRepeat, fun k => ?_⟩
    have hp := h.placed k
    have hbefore : s.isInFlight k = false := by simp [State.isInFlight, ha]
    have hready : bit (clearBit s.ready i) k = (s.isReady k && !decide (i = k)) :=
      bit_clearBit s.ready i k
    rw [State.placed, hbefore] at hp
    change placeOk (s.isFree k) (s.isScheduled k) (bit (clearBit s.ready i) k) (decide (i = k))
      (s.record k).repeating = true
    rw [hready]
    by_cases hk : i = k
    · subst hk
      rw [hi] at hp
      simpa using placeOk_drained hp
    · simpa [hk] using hp

/-- Once its callback has returned, nothing is in flight: a one-shot has become free, a periodic
task stays in the index. -/
theorem finishCallback (h : s.PlaceInv) (ha : s.updActive = true) :
    ({ finishCallback s with updActive := false } : State).PlaceInv := by
  have hflight : ∀ k, s.isInFlight k = decide (s.updSlot = k) := fun k => by
    rw [State.isInFlight, ha]; rfl
  have hplace : ∀ k, placeOk (s.isFree k) (s.isScheduled k) (s.isReady k) (decide (s.updSlot = k))
      (s.record k).repeating = true := fun k => by rw [← hflight]; exact h.placed k
  rcases finishCallback_cases s with ⟨hr, e⟩ | ⟨hr, e⟩ <;> rw [e]
  · refine ⟨h.noRepeat, fun k => ?_⟩
    have hp := hplace k
    change placeOk (s.isFree k) (s.isScheduled k) (s.isReady k) false (s.record k).repeating = true
    by_cases hk : s.updSlot = k
    · rw [← hk, hr] at hp ⊢
      exact hp
    · simpa [hk] using hp
  · refine ⟨h.noRepeat, fun k => ?_⟩
    have hp := hplace k
    change placeOk ((releaseSlot s.updSlot s).isFree k) (s.isScheduled k)
      ((releaseSlot s.updSlot s).isReady k) false (s.record k).repeating = true
    rw [isFree_releaseSlot, isReady_releaseSlot]
    by_cases hk : s.updSlot = k
    · have hs := h.not_scheduled_of_inFlight (i := s.updSlot) (by simp [hflight]) hr
      rw [← hk, hs]
      simp [placeOk]
    · simpa [hk] using hp

end State.PlaceInv

/-! ### Every operation -/

/-- A drain step does not read whether a callback is in flight. -/
theorem drainStep_withActive (s : State) (b : Bool) :
    drainStep { s with updActive := b } = drainStep s := rfl

theorem callbackDuty_tail {s : State} {i : Instr} :
    callbackDuty s.tail i ↔ callbackDuty s i := by
  cases i <;> exact Iff.rfl

/-- Every operation of a host that keeps its duty keeps the places. -/
theorem Effect.keeps_placeInv {s t : State} {i : Instr} (he : Effect s i t) (h : s.Inv)
    (hd : callbackDuty s i) : t.PlaceInv := by
  obtain ⟨hcore, hp⟩ := inv_iff.1 h
  have hst := hcore.toStoreInv
  cases he with
  | answered hi => exact hp.of_eq rfl
  | configFault hs => exact hp.of_eq rfl
  | @started v u hs hf hu =>
    exact (State.PlaceInv.reprogrammed (s := s.initialised v) (hp.of_eq rfl) hu).of_eq rfl
  | @registered rep p cb j s2 u v hs hf hv hj hi hu =>
    refine ((hp.registered hj (fun hr => ?_) hi).reprogrammed hu).of_eq rfl
    subst hr
    by_contra hfl
    simp only [State.isInFlight, Bool.not_eq_false, Bool.and_eq_true, beq_iff_eq] at hfl
    obtain ⟨ha, rfl⟩ := hfl
    exact hd ⟨ha, hj⟩
  | @removed i j u hi hs hf hj hu => exact ((hp.removed hst.countLe j).reprogrammed hu).of_eq rfl
  | drained hs ha ht => exact hp.drainStep ha ht
  | returned ha ht =>
    exact (hp.finishCallback ha).drainStep rfl ((drainStep_withActive _ _).trans ht)
  | interrupted hf he hu ht => exact (hp.serviced hst hu).reprogrammed ht
  | reloaded hs hc hk => exact hp.of_eq rfl
  | counted hs hc hk => exact hp.of_eq rfl

/-- The schedule and the outputs have no share in the invariants. -/
theorem State.Inv.withStreams {s : State} (h : s.Inv) (xs : List Stimulus) (os : List Output) :
    ({ s with stimuli := xs, outputs := os } : State).Inv :=
  { h with }

/-- Settles O41: a dutiful step keeps the core invariants and the places, which together are all
the invariants. -/
theorem dutifulStepsKeepInvariants : Obligations.DutifulStepsKeepInvariants := by
  intro s t h hduty hs
  rcases step_cases hs with ⟨-, rfl⟩ | ⟨i, hi, he⟩ | ⟨x, -, -, rfl⟩
  · exact h
  · have htail : s.tail.Inv := h.withStreams _ _
    have eff := effect_of_exec he
    exact inv_iff.2 ⟨eff.keeps_coreInv htail.toCoreInv,
      eff.keeps_placeInv htail (callbackDuty_tail.2 (hduty i hi))⟩
  · exact h.withStreams _ _

end Sys2Proof.Machine

/-! V7, the order of deadlines (10_state.md R44), and the timely states: what a removal, an
insertion within one window, a registration and the firing loop do to the order, and what the
reload controller programs while every deadline lies ahead (44_isr_and_drain.md R213, R215). -/

namespace Sys2Proof.Machine

/-! ### Order -/

namespace State.Ordered

variable {s t : State}

/-- The order is a matter of the records and the index alone. -/
theorem of_eq (h : s.Ordered)
    (e : t = { t with tasks := s.tasks, sorted := s.sorted, count := s.count }) : t.Ordered := by
  rw [e]
  exact h

/-- The order is a matter of the deadlines by position alone. -/
theorem of_deadlines (h : s.Ordered) (hc : t.count = s.count)
    (hd : ∀ p < s.count.toNat, deadlineAt t p = deadlineAt s p) : t.Ordered := by
  intro p q hpq hq
  rw [hc] at hq
  rw [hd p (by omega), hd q hq]
  exact h p q hpq hq

theorem of_empty (hc : s.count = 0#5) : s.Ordered := by
  intro p q _ hq
  simp [hc] at hq

theorem reprogrammed (h : s.Ordered) (hn : scheduleNextInterval s = .ok t) : t.Ordered :=
  h.of_eq (by obtain ⟨-, e⟩ := scheduleNextInterval_cases hn; rw [e])

theorem removeSorted (h : s.Ordered) (h16 : s.count.toNat ≤ 16) (i : Slot) :
    (removeSorted i s).Ordered := by
  obtain ⟨m, hm, hpos⟩ := removeSorted_positions i h16
  have hd : ∀ q < (Machine.removeSorted i s).count.toNat,
      deadlineAt (Machine.removeSorted i s) q = deadlineAt s (m q) := fun q hq => by
    rw [deadlineAt, removeSorted_record, getAt, (hpos q hq).2]
    rfl
  intro p q hpq hq
  rw [hd p (by omega), hd q hq]
  exact h _ _ (hm p q hpq) (hpos q hq).1

/-- An insertion keeps the order when the deadlines and the new one lie in one window
(41_sorted_index.md R142): the search stops after the last deadline that is not later. -/
theorem insertSorted (h : s.Ordered) {i : Slot} {base : Micros}
    (hw : ∀ p < s.count.toNat, (deadlineAt s p - base).toNat < 2 ^ 31)
    (hn : ((s.record i).nextFireUs - base).toNat < 2 ^ 31) (hi : insertSorted i s = .ok t) :
    t.Ordered := by
  obtain ⟨hc, -⟩ := insertSorted_cases hi
  obtain ⟨k, hk, hcount, hleft, hright, hq⟩ := insertSorted_nib hi
  have hd : ∀ q < 16, deadlineAt t q =
      if q < k then deadlineAt s q
      else if q = k then (s.record i).nextFireUs else deadlineAt s (q - 1) := by
    intro q hq16
    rw [deadlineAt, getAt, insertSorted_record hi, hq q hq16]
    split_ifs <;> rfl
  have hbefore : ∀ a < k, sdiff (deadlineAt s a) (s.record i).nextFireUs ≤ 0 := fun a ha => by
    have hl := hleft.resolve_left (by omega)
    have ho := h.le (p := a) (q := k - 1) (by omega) (by omega)
    rw [sdiff_of_window (hw _ (by omega)) hn] at hl ⊢
    rw [sdiff_of_window (hw _ (by omega)) (hw _ (by omega))] at ho
    omega
  have hafter : ∀ b, k ≤ b → b < s.count.toNat →
      sdiff (s.record i).nextFireUs (deadlineAt s b) ≤ 0 := fun b hb hlt => by
    have hr := hright.resolve_left (by omega)
    have ho := h.le hb hlt
    rw [sdiff_of_window (hw _ (by omega)) hn] at hr
    rw [sdiff_of_window (hw _ (by omega)) (hw _ hlt)] at ho
    rw [sdiff_of_window hn (hw _ hlt)]
    omega
  intro a b hab hb
  rw [hd a (by omega), hd b (by omega)]
  split_ifs with h1 h2 h3 h4 h5
  · exact h _ _ hab (by omega)
  · exact hbefore a h1
  · exact h _ _ (by omega) (by omega)
  · omega
  · omega
  · exact hafter _ (by omega) (by omega)
  · omega
  · omega
  · exact h _ _ (by omega) (by omega)

end State.Ordered

/-- A record stored in a slot that is not scheduled moves no scheduled deadline. -/
theorem deadlineAt_setRecord {s : State} {i : Slot} (r : TaskRecord)
    (hi : s.isScheduled i = false) {p : Nat} (hp : p < s.count.toNat) :
    deadlineAt (s.setRecord i r) p = deadlineAt s p := by
  have hne : i ≠ nib s.sorted p := fun e => by
    rw [e, isScheduled_nib s hp] at hi
    cases hi
  exact congrArg TaskRecord.nextFireUs (State.setRecord_record_of_ne s r hne)

theorem deadlineAt_registering {s : State} {j : Slot} (p : Micros) (cb : Token) (rep : Bool)
    (hj : s.isScheduled j = false) {q : Nat} (hq : q < s.count.toNat) :
    deadlineAt (s.registering p cb rep j) q = deadlineAt s q :=
  deadlineAt_setRecord (s := { s with free := clearBit s.free j }) _ hj hq

/-- A registration keeps the order when its deadline lies in one window with the others. -/
theorem State.Ordered.registered {s t : State} (h : s.Ordered) {p : Micros} {cb : Token}
    {rep : Bool} {j : Slot} (hj : s.isScheduled j = false)
    (hw : s.Within (deadlineAfter s.g32 (clampPeriod p)))
    (hi : Machine.insertSorted j (s.registering p cb rep j) = .ok t) : t.Ordered := by
  obtain ⟨base, hn, hd⟩ := hw
  have he : ∀ q < s.count.toNat, deadlineAt (s.registering p cb rep j) q = deadlineAt s q :=
    fun q hq => deadlineAt_registering p cb rep hj hq
  refine (h.of_deadlines (t := s.registering p cb rep j) rfl he).insertSorted
    (fun q hq => by rw [he q hq]; exact hd q hq) ?_ hi
  rw [registering_record, if_pos rfl]
  exact hn

/-! ### Firing within one window -/

/-- The premise of `State.ServiceWindow` during the firing loop, slot by slot. -/
structure State.FiringWindow (s : State) (base : Micros) : Prop where
  tick : (s.g32 - base).toNat < 2 ^ 31
  deadlines : ∀ i, s.isScheduled i = true → ((s.record i).nextFireUs - base).toNat < 2 ^ 31
  renewals : ∀ i, s.isScheduled i = true → sdiff (s.record i).nextFireUs s.g32 ≤ 0 →
    (s.record i).repeating = true → ((s.rearmedRecord i).nextFireUs - base).toNat < 2 ^ 31

/-- The interrupt operation enters the firing loop within its window. -/
theorem firingWindow_of_serviceWindow {s : State} (h : s.ServiceWindow) :
    ∃ base, (advanceTick (acknowledgeUpdate s)).FiringWindow base := by
  obtain ⟨base, htick, hd, hr⟩ := h
  refine ⟨base, htick, fun i hi => ?_, fun i hi hdue hrep => ?_⟩ <;>
    obtain ⟨p, hp, rfl⟩ := (isScheduled_iff _ i).1 hi
  · exact hd p hp
  · exact hr p hp hdue hrep

theorem due_of_frontDue {s : State} (hc : s.count ≠ 0#5) (h : frontDue s = .ok true) :
    sdiff (s.record s.front).nextFireUs s.g32 ≤ 0 := by
  rw [frontDue_of_ne hc] at h
  simp only [Except.ok.injEq, decide_eq_true_iff] at h
  exact h

/-- What a firing re-arms is not due again: its deadline lies a period ahead. -/
theorem State.FiringWindow.fireFront {s t : State} {base : Micros} (h : s.FiringWindow base)
    (hst : s.StoreInv) (hd : frontDue s = .ok true) (hf : fireFront s = .ok t) :
    t.FiringWindow base := by
  obtain ⟨hc, -⟩ := fireFront_fired hf
  have hg : t.g32 = s.g32 := by rw [fireFront_eq hf]; rfl
  have hs := isScheduled_front hc
  refine ⟨by rw [hg]; exact h.tick, fun i hi => ?_, fun i hi => ?_⟩
  · rw [fireFront_record hf]
    split
    · rename_i hr
      exact h.renewals _ hs (due_of_frontDue hc hd) hr.2
    · exact h.deadlines i (isScheduled_of_fireFront hst.countLe hf hi)
  · rw [State.rearmedRecord, hg, fireFront_record hf]
    split
    · intro hdue
      have hp := hst.periodRange _ hs
      rw [State.rearmedRecord, sdiff_deadlineAfter _ _ hp.2] at hdue
      have := hp.1
      omega
    · exact h.renewals i (isScheduled_of_fireFront hst.countLe hf hi)

/-- One iteration of the firing loop keeps the order within the window. -/
theorem State.Ordered.fireFront {s t : State} {base : Micros} (h : s.Ordered) (hst : s.StoreInv)
    (hp : s.PlaceInv) (hw : s.FiringWindow base) (hd : frontDue s = .ok true)
    (hf : fireFront s = .ok t) : t.Ordered := by
  obtain ⟨hc, hk⟩ := fireFront_fired hf
  have hfired : s.fired.Ordered := by
    rw [fired_eq hc]
    exact h.removeSorted hst.countLe s.front
  rcases hk with ⟨-, rfl⟩ | ⟨hr, hi⟩
  · exact hfired
  · have habs := hp.front_not_scheduled_fired hst.countLe hc
    have he : ∀ q < s.fired.count.toNat,
        deadlineAt (s.fired.setRecord s.front (s.rearmedRecord s.front)) q = deadlineAt s.fired q :=
      fun q hq => deadlineAt_setRecord _ habs hq
    refine (hfired.of_deadlines (t := s.fired.setRecord s.front (s.rearmedRecord s.front)) rfl
      he).insertSorted (base := base) (fun q hq => ?_) ?_ hi
    · rw [he q hq]
      exact hw.deadlines _ (isScheduled_of_fired hst.countLe hc (isScheduled_nib s.fired hq))
    · rw [State.setRecord_record_self]
      exact hw.renewals _ (isScheduled_front hc) (due_of_frontDue hc hd) hr

/-! ### Deadlines ahead -/

/-- Every scheduled deadline lies at least one tick ahead (44_isr_and_drain.md R215). -/
def State.Ahead (s : State) : Prop := ∀ p < s.count.toNat, 1 ≤ sdiff (deadlineAt s p) s.g32

/-- The firing loop keeps the order and ends with every deadline ahead of the advanced tick. -/
theorem State.Ordered.serviced {s t : State} (h : s.Ordered) (hst : s.StoreInv) (hp : s.PlaceInv)
    (hw : s.ServiceWindow) (hu : fireLoop 16 (advanceTick (acknowledgeUpdate s)) = .ok t) :
    t.Ordered ∧ t.Ahead := by
  obtain ⟨base, hwin⟩ := firingWindow_of_serviceWindow hw
  obtain ⟨⟨-, -, ho, ht⟩, hdone⟩ := fireLoop_induction
    (P := fun u => u.StoreInv ∧ u.PlaceInv ∧ u.Ordered ∧ u.FiringWindow base)
    (fun _ _ ⟨hst, hp, ho, hw⟩ hd hf => ⟨hst.fireFront hf, hp.fireFront hst.countLe hf,
      ho.fireFront hst hp hw hd hf, hw.fireFront hst hd hf⟩)
    _ _ _ ⟨hst.of_eq rfl, hp.of_eq rfl, h.of_eq rfl, hwin⟩ hu
  refine ⟨ho, fun p hlt => ?_⟩
  have hc : t.count ≠ 0#5 := (count_ne_zero_iff t).2 (by omega)
  have hpos := (count_ne_zero_iff t).1 hc
  have hfront : 0 < sdiff (deadlineAt t 0) t.g32 := by
    rw [frontDue_of_ne hc] at hdone
    simpa using hdone
  have hle := ho.le (Nat.zero_le p) hlt
  have h0 : (deadlineAt t 0 - base).toNat < 2 ^ 31 := ht.deadlines _ (isScheduled_nib t hpos)
  have h1 : (deadlineAt t p - base).toNat < 2 ^ 31 := ht.deadlines _ (isScheduled_nib t hlt)
  rw [sdiff_of_window h0 ht.tick] at hfront
  rw [sdiff_of_window h0 h1] at hle
  rw [sdiff_of_window h1 ht.tick]
  omega

/-- V7 after every operation that compares deadlines of one window only. -/
theorem Effect.keeps_ordered {s t : State} {i : Instr} (he : Effect s i t) (h : s.Inv)
    (ho : s.Ordered) (hd : windowDuty s i) : t.Ordered := by
  obtain ⟨hcore, hp⟩ := inv_iff.1 h
  have hst := hcore.toStoreInv
  cases he with
  | answered hi => exact ho
  | configFault hs => exact ho
  | @started v u hs hf hu =>
    exact (State.Ordered.reprogrammed (s := s.initialised v) ho hu).of_eq rfl
  | @registered rep p cb j s2 u v hs hf hv hj hi hu =>
    have hw : s.Within (deadlineAfter s.g32 (clampPeriod p)) := by cases rep <;> exact hd
    exact ((ho.registered (hp.not_scheduled_of_free hj) hw hi).reprogrammed hu).of_eq rfl
  | @removed i j u hi hs hf hj hu =>
    exact (State.Ordered.reprogrammed (s := releaseSlot j (removeSorted j s))
      (ho.removeSorted hst.countLe j) hu).of_eq rfl
  | drained hs ha ht => exact ho.of_eq (by rw [drainStep_eq ht])
  | returned ha ht => exact ho.of_eq (by rw [drainStep_eq ht, finishCallback_eq])
  | interrupted hf hu hl ht => exact (ho.serviced hst hp hd hl).1.reprogrammed ht
  | reloaded hs hc hk => exact ho
  | counted hs hc hk => exact ho

/-- Settles O43. -/
theorem operationsInOneWindowKeepOrder : Obligations.OperationsInOneWindowKeepOrder :=
  fun _ _ _ h ho hd he => (effect_of_exec he).keeps_ordered h ho hd

/-! ### Timely states -/

theorem State.Timely.of_eq {s t : State} (h : s.Timely)
    (e : t = { t with tasks := s.tasks, sorted := s.sorted, count := s.count, g := s.g,
                      cur := s.cur }) : t.Timely := by
  rw [e]
  exact { h with }

theorem timely_of_empty {s : State} (hc : s.count = 0#5) : s.Timely :=
  ⟨State.Ordered.of_empty hc, fun p hp => absurd hp (by simp [hc]), fun h => absurd hc h⟩

/-- While every deadline lies ahead and no overrun moves the tick, the reload controller programs
the exact distance to the front. -/
theorem timely_of_reprogrammed {s t : State} (ho : s.Ordered) (ha : s.Ahead)
    (hn : scheduleNextInterval s = .ok t) (hg : t.g = s.g) : t.Timely := by
  obtain ⟨hp, e⟩ := scheduleNextInterval_cases hn
  have ht : t.Ahead := by
    have hg32 : t.g32 = s.g32 := congrArg (BitVec.setWidth 32) hg
    intro p hlt
    rw [hg32]
    rw [e] at hlt ⊢
    exact ha p hlt
  refine ⟨ho.reprogrammed hn, ht, fun hc => ?_⟩
  rw [TimerReprogrammed, if_neg hc] at hp
  obtain ⟨-, hcur, -⟩ := hp
  have h1 := ht 0 ((count_ne_zero_iff t).1 hc)
  rw [hcur, State.frontInterval, intervalFor_toNat (sdiff_lt _ _)]
  omega

/-- In a timely state a new deadline a valid period ahead lies in one window with the others: the
base is the tick. -/
theorem within_of_timely {s : State} (h : s.Timely) {p : Micros} (hp : p.toNat < 2 ^ 31) :
    s.Within (deadlineAfter s.g32 p) :=
  ⟨s.g32, window_of_sdiff (by rw [sdiff_deadlineAfter _ _ hp]; omega),
    fun q hq => window_of_sdiff (by have := h.future q hq; omega)⟩

/-- `Ahead`, slot by slot. -/
theorem ahead_iff {s : State} :
    s.Ahead ↔ ∀ i, s.isScheduled i = true → 1 ≤ sdiff (s.record i).nextFireUs s.g32 := by
  constructor
  · intro h i hi
    obtain ⟨p, hp, rfl⟩ := (isScheduled_iff _ i).1 hi
    exact h p hp
  · exact fun h p hp => h _ (isScheduled_nib s hp)

theorem State.Ahead.removed {s : State} (h : s.Ahead) (h16 : s.count.toNat ≤ 16) (i : Slot) :
    (removeSorted i s).Ahead := by
  rw [ahead_iff] at h ⊢
  intro j hj
  rw [removeSorted_record, State.g32, removeSorted_g]
  exact h j (isScheduled_of_removeSorted h16 hj)

theorem State.Ahead.registered {s t : State} (h : s.Ahead) {p : Micros} {cb : Token} {rep : Bool}
    {j : Slot} (hv : registrationValid p cb = true)
    (hi : insertSorted j (s.registering p cb rep j) = .ok t) : t.Ahead := by
  rw [ahead_iff] at h ⊢
  have hg : t.g32 = s.g32 := by rw [insertSorted_eq hi]; rfl
  obtain ⟨hlo, hhi⟩ := clampPeriod_range hv
  intro k hk
  rw [isScheduled_insertSorted hi, Bool.or_eq_true, decide_eq_true_iff] at hk
  rw [hg, insertSorted_record hi, registering_record]
  split
  · rw [newRecord, sdiff_deadlineAfter _ _ hhi]
    omega
  · rename_i hne
    exact h k (hk.resolve_right hne)

/-- The operation that advances the tick by its programmed amount only leaves a timely state. -/
theorem Effect.keeps_timely {s t : State} {i : Instr} (he : Effect s i t) (h : s.Inv)
    (hty : s.Timely) (hg : t.g = s.g + programmedAdvance s i) : t.Timely := by
  obtain ⟨hcore, hp⟩ := inv_iff.1 h
  have hst := hcore.toStoreInv
  have ho := hty.toOrdered
  have hahead : s.Ahead := hty.future
  cases he with
  | answered hi => exact hty.of_eq rfl
  | configFault hs => exact hty.of_eq rfl
  | @started v u hs hf hu =>
    obtain ⟨-, e⟩ := scheduleNextInterval_cases hu
    refine timely_of_empty ?_
    rw [e]
    exact (hcore.beforeStart hs).1
  | @registered rep p cb j s2 u v hs hf hv hj hi hu =>
    have hw := within_of_timely hty (clampPeriod_range hv).2
    have hg2 : u.g = s2.g := by
      rw [insertSorted_eq hi]
      cases rep <;> exact hg.trans (BitVec.add_zero _)
    exact (timely_of_reprogrammed (ho.registered (hp.not_scheduled_of_free hj) hw hi)
      (hahead.registered hv hi) hu hg2).of_eq rfl
  | @removed i j u hi hs hf hj hu =>
    have hg2 : u.g = (releaseSlot j (removeSorted j s)).g := by
      rw [releaseSlot_g, removeSorted_g]
      obtain ⟨id, rfl | rfl⟩ := hi <;> exact hg.trans (BitVec.add_zero _)
    exact (timely_of_reprogrammed (s := releaseSlot j (removeSorted j s))
      (ho.removeSorted hst.countLe j) (hahead.removed hst.countLe j) hu hg2).of_eq rfl
  | drained hs ha ht => exact hty.of_eq (by rw [drainStep_eq ht])
  | returned ha ht => exact hty.of_eq (by rw [drainStep_eq ht, finishCallback_eq])
  | @interrupted u t hf he hl ht =>
    obtain ⟨hou, hau⟩ := ho.serviced hst hp (serviceWindow_of_timely hcore hty) hl
    exact timely_of_reprogrammed hou hau ht (by rw [fireLoop_eq hl]; exact hg)
  | reloaded hs hc hk => exact hty.of_eq rfl
  | counted hs hc hk => exact hty.of_eq rfl

/-- Settles O42. -/
theorem operationsWithoutOverrunStayTimely : Obligations.OperationsWithoutOverrunStayTimely :=
  fun _ _ _ h hty he hg => (effect_of_exec he).keeps_timely h hty hg

end Sys2Proof.Machine

/-! Frames over all operations: what each may write (10_state.md R20 to R41), and how far the tick
can move (R31). -/

namespace Sys2Proof.Machine

/-! ### Who writes what -/

/-- The table of 10_state.md's "Written by", read by operation: the elements an operation may write
are taken from `w`, all others from `s`. -/
def writable (i : Instr) (s w : State) : State :=
  match i with
  | .start => { s with
      g := w.g, cur := w.cur, cnt := w.cnt, arr := w.arr, psc := w.psc, cen := w.cen, uif := w.uif
      uie := w.uie, started := w.started, faulted := w.faulted, outputs := w.outputs }
  | .registerTask _ _ => { s with
      tasks := w.tasks, free := w.free, sorted := w.sorted, count := w.count, g := w.g
      cur := w.cur, cnt := w.cnt, arr := w.arr, cen := w.cen, outputs := w.outputs }
  | .setTimeout _ _ => { s with
      tasks := w.tasks, free := w.free, sorted := w.sorted, count := w.count, g := w.g
      cur := w.cur, gen := w.gen, cnt := w.cnt, arr := w.arr, cen := w.cen, outputs := w.outputs }
  | .unregisterTask _ | .cancelTimeout _ => { s with
      free := w.free, ready := w.ready, sorted := w.sorted, count := w.count, g := w.g
      cur := w.cur, cnt := w.cnt, arr := w.arr, cen := w.cen, outputs := w.outputs }
  | .update => { s with
      ready := w.ready, updActive := w.updActive, updSlot := w.updSlot, outputs := w.outputs }
  | .getGlobalTick => { s with outputs := w.outputs }
  | .onTimerUpdate => { s with
      tasks := w.tasks, ready := w.ready, sorted := w.sorted, count := w.count, g := w.g
      cur := w.cur, cnt := w.cnt, arr := w.arr, cen := w.cen, uif := w.uif }
  | .cbReturn => { s with
      free := w.free, ready := w.ready, updActive := w.updActive, updSlot := w.updSlot
      outputs := w.outputs }
  | .tick => { s with cnt := w.cnt, uif := w.uif }

/-- Every operation writes within the table. -/
theorem Effect.eq_writable {s t : State} {i : Instr} (he : Effect s i t) : t = writable i s t := by
  cases he with
  | answered hi =>
    cases i with
    | onTimerUpdate | cbReturn | tick => cases hi
    | _ => rfl
  | configFault hs => rfl
  | started hs hf hu =>
    obtain ⟨-, e⟩ := scheduleNextInterval_cases hu
    rw [e]
    rfl
  | @registered rep p cb j s2 u v hs hf hv hj hi hu =>
    obtain ⟨-, e⟩ := scheduleNextInterval_cases hu
    rw [e, insertSorted_eq hi]
    cases rep <;> rfl
  | @removed i j u hi hs hf hj hu =>
    obtain ⟨-, e⟩ := scheduleNextInterval_cases hu
    rw [e, removeSorted_eq]
    obtain ⟨id, rfl | rfl⟩ := hi <;> rfl
  | drained hs ha ht =>
    rw [drainStep_eq ht]
    rfl
  | returned ha ht =>
    rw [drainStep_eq ht, finishCallback_eq]
    rfl
  | interrupted hf hu hl ht =>
    obtain ⟨-, e⟩ := scheduleNextInterval_cases ht
    rw [e, fireLoop_eq hl]
    rfl
  | reloaded hs hc hk => rfl
  | counted hs hc hk => rfl

/-- The update flag is set by TICK only and cleared by START and ON_TIMER_UPDATE only (R38). -/
theorem Effect.uif_cases {s t : State} {i : Instr} (he : Effect s i t) :
    t.uif = s.uif ∨ (i = .tick ∧ t.uif = true) ∨
      ((i = .start ∨ i = .onTimerUpdate) ∧ t.uif = false) := by
  have e := he.eq_writable
  cases he with
  | started hs hf hu =>
    obtain ⟨-, e⟩ := scheduleNextInterval_cases hu
    exact .inr (.inr ⟨.inl rfl, by rw [e]; rfl⟩)
  | interrupted hf hu hl ht =>
    obtain ⟨-, e⟩ := scheduleNextInterval_cases ht
    exact .inr (.inr ⟨.inr rfl, by rw [e, fireLoop_eq hl]; rfl⟩)
  | reloaded hs hc hk => exact .inr (.inl ⟨rfl, rfl⟩)
  | @registered rep => cases rep <;> exact .inl (by rw [e]; rfl)
  | removed hi => obtain ⟨id, rfl | rfl⟩ := hi <;> exact .inl (by rw [e]; rfl)
  | drained hs ha ht => exact .inl (by rw [e]; rfl)
  | returned ha ht => exact .inl (by rw [e]; rfl)
  | answered hi => exact .inl rfl
  | configFault hs => exact .inl rfl
  | counted hs hc hk => exact .inl rfl

/-- The end of a callback frees at most its slot. -/
theorem isFree_finishCallback (s : State) (k : Slot) :
    (finishCallback s).isFree k =
      (s.isFree k || (decide (s.updSlot = k) && !(s.record s.updSlot).repeating)) := by
  rcases finishCallback_cases s with ⟨hr, e⟩ | ⟨hr, e⟩ <;> simp [e, hr]

/-- A slot is taken by a registration and freed by a cancellation or a returning callback. -/
theorem Effect.isFree_cases {s t : State} {i : Instr} (he : Effect s i t) (k : Slot) :
    t.isFree k = s.isFree k ∨
      ((∃ rep p cb, i = registration rep p cb) ∧ (t.isFree k = true → s.isFree k = true)) ∨
      (((∃ id, i = .unregisterTask id ∨ i = .cancelTimeout id) ∨ i = .cbReturn) ∧
        (s.isFree k = true → t.isFree k = true)) := by
  have e := he.eq_writable
  cases he with
  | @registered rep p cb j s2 u v hs hf hv hj hi hu =>
    obtain ⟨-, e⟩ := scheduleNextInterval_cases hu
    have hfree : (u.respond .ok v).isFree k = (s.isFree k && !decide (j = k)) := by
      rw [e, insertSorted_eq hi]
      exact bit_clearBit s.free j k
    exact .inr (.inl ⟨⟨rep, p, cb, rfl⟩, fun h => by
      rw [hfree, Bool.and_eq_true] at h
      exact h.1⟩)
  | @removed i j u hi hs hf hj hu =>
    obtain ⟨-, e⟩ := scheduleNextInterval_cases hu
    have hfree : (u.respond .ok 1#64).isFree k = (s.isFree k || decide (j = k)) := by
      rw [e, removeSorted_eq]
      exact bit_setBit s.free j k
    exact .inr (.inr ⟨.inl hi, fun h => by simp [hfree, h]⟩)
  | @returned t ha ht =>
    have hfree : t.isFree k = (finishCallback s).isFree k := by rw [drainStep_eq ht]; rfl
    exact .inr (.inr ⟨.inr rfl, fun h => by simp [hfree, isFree_finishCallback, h]⟩)
  | answered hi => exact .inl rfl
  | configFault hs => exact .inl rfl
  | started hs hf hu => exact .inl (by rw [e]; rfl)
  | drained hs ha ht => exact .inl (by rw [e]; rfl)
  | interrupted hf hu hl ht => exact .inl (by rw [e]; rfl)
  | reloaded hs hc hk => exact .inl rfl
  | counted hs hc hk => exact .inl rfl

theorem isReady_of_drainStep {s t : State} (h : drainStep s = .ok t) {k : Slot}
    (hk : t.isReady k = true) : s.isReady k = true := by
  rcases drainStep_cases h with ⟨-, rfl⟩ | ⟨i, -, rfl⟩
  · exact hk
  · have hk : bit (clearBit s.ready i) k = true := hk
    rw [bit_clearBit, Bool.and_eq_true] at hk
    exact hk.1

theorem isReady_of_finishCallback {s : State} {k : Slot}
    (hk : (finishCallback s).isReady k = true) : s.isReady k = true := by
  rcases finishCallback_cases s with ⟨-, e⟩ | ⟨-, e⟩ <;> rw [e] at hk
  · exact hk
  · rw [isReady_releaseSlot, Bool.and_eq_true] at hk
    exact hk.1

/-- A ready bit is set by ON_TIMER_UPDATE only (R28). -/
theorem Effect.isReady_of_ne_interrupt {s t : State} {i : Instr} (he : Effect s i t)
    (hi : i ≠ .onTimerUpdate) {k : Slot} (hk : t.isReady k = true) : s.isReady k = true := by
  have e := he.eq_writable
  cases he with
  | @registered rep => cases rep <;> (rw [e] at hk; exact hk)
  | @removed i j u hi hs hf hj hu =>
    obtain ⟨-, e⟩ := scheduleNextInterval_cases hu
    have hr : (u.respond .ok 1#64).isReady k = (s.isReady k && !decide (j = k)) := by
      rw [e, removeSorted_eq]
      exact bit_clearBit s.ready j k
    rw [hr, Bool.and_eq_true] at hk
    exact hk.1
  | drained hs ha ht => exact isReady_of_drainStep ht hk
  | returned ha ht => exact isReady_of_finishCallback (isReady_of_drainStep ht hk)
  | interrupted hf hu hl ht => exact absurd rfl hi
  | started hs hf hu =>
    rw [e] at hk
    exact hk
  | answered hi => exact hk
  | configFault hs => exact hk
  | reloaded hs hc hk => exact hk
  | counted hs hc hk => exact hk

/-- A record that differs from another in its deadline at most. -/
def SameButDeadline (q r : TaskRecord) : Prop := q = { r with nextFireUs := q.nextFireUs }

theorem SameButDeadline.withDeadline {q r : TaskRecord} (h : SameButDeadline q r) (d : Micros) :
    SameButDeadline { q with nextFireUs := d } r := by
  rw [h]; rfl

/-- The firing loop moves deadlines at most. -/
theorem fireLoop_record {fuel : Nat} {s t : State} (h : fireLoop fuel s = .ok t) (j : Slot) :
    SameButDeadline (t.record j) (s.record j) := by
  refine (fireLoop_induction (P := fun u => SameButDeadline (u.record j) (s.record j))
    (fun u v hu _ hv => ?_) fuel s t rfl h).1
  rw [fireFront_record hv]
  split
  · rename_i hj
    rw [hj.1]
    exact hu.withDeadline _
  · exact hu

/-- A record is written, but for its deadline, by a registration into its free slot only
(R20 to R25). -/
theorem Effect.record_cases {s t : State} {i : Instr} (he : Effect s i t) (k : Slot) :
    SameButDeadline (t.record k) (s.record k) ∨
      (s.isFree k = true ∧ ∃ rep p cb, i = registration rep p cb) := by
  have e := he.eq_writable
  cases he with
  | @registered rep p cb j s2 u v hs hf hv hj hi hu =>
    by_cases hk : j = k
    · exact .inr ⟨hk ▸ hj, rep, p, cb, rfl⟩
    · obtain ⟨-, e⟩ := scheduleNextInterval_cases hu
      have hrec : (u.respond .ok v).record k = s.record k := by
        rw [State.respond_record, e]
        exact (insertSorted_record hi k).trans
          ((registering_record s p cb rep j k).trans (if_neg hk))
      exact .inl (by rw [hrec]; rfl)
  | @interrupted u t hf hu hl ht =>
    obtain ⟨-, e⟩ := scheduleNextInterval_cases ht
    have hrec : t.record k = u.record k := by rw [e]; rfl
    exact .inl (by rw [hrec]; exact fireLoop_record hl k)
  | removed hi => obtain ⟨id, rfl | rfl⟩ := hi <;> exact .inl (by rw [e]; rfl)
  | drained hs ha ht => exact .inl (by rw [e]; rfl)
  | returned ha ht => exact .inl (by rw [e]; rfl)
  | started hs hf hu => exact .inl (by rw [e]; rfl)
  | answered hi => exact .inl rfl
  | configFault hs => exact .inl rfl
  | reloaded hs hc hk => exact .inl rfl
  | counted hs hc hk => exact .inl rfl

theorem exists_registration {i : Instr} (h : ∃ rep p cb, i = registration rep p cb) :
    (∃ d cb, i = .registerTask d cb) ∨ ∃ d cb, i = .setTimeout d cb := by
  obtain ⟨rep, p, cb, rfl⟩ := h
  cases rep
  · exact .inr ⟨p, cb, rfl⟩
  · exact .inl ⟨p, cb, rfl⟩

/-- Settles O31: which elements an operation writes is the table, in which direction it moves a
bit and what it leaves of a record are the lemmas above. -/
theorem whoWritesWhat : Obligations.WhoWritesWhat := by
  intro s t i h
  have he := effect_of_exec h
  have e := he.eq_writable
  clear h
  refine ⟨?_, ?_, ?_, ?_, ?_, fun h0 h1 => ?_, fun h0 h1 => ?_, ?_, ?_, fun j h0 h1 => ?_,
    fun j h0 h1 => ?_, fun j h0 h1 => ?_, fun j hj => ?_⟩
  · rw [e]; cases i <;> rfl
  · rw [e]; cases i <;> rfl
  · rw [e]; cases i <;> simp [writable]
  · rw [e]; cases i <;> simp [writable]
  · rw [e]; cases i <;> simp [writable]
  · rcases he.uif_cases with hu | ⟨hi, -⟩ | ⟨-, hu⟩
    · rw [hu, h0] at h1; cases h1
    · exact hi
    · rw [hu] at h1; cases h1
  · rcases he.uif_cases with hu | ⟨-, hu⟩ | ⟨hi, -⟩
    · rw [hu, h0] at h1; cases h1
    · rw [hu] at h1; cases h1
    · exact hi
  · rw [e]; cases i <;> simp [writable]
  · rw [e]; cases i <;> simp [writable]
  · rcases he.isFree_cases j with hf | ⟨hi, -⟩ | ⟨-, hf⟩
    · rw [hf, h1] at h0; cases h0
    · exact exists_registration hi
    · rw [hf h1] at h0; cases h0
  · rcases he.isFree_cases j with hf | ⟨-, hf⟩ | ⟨⟨id, hi⟩ | hi, -⟩
    · rw [hf, h1] at h0; cases h0
    · rw [hf h0] at h1; cases h1
    · exact hi.elim (fun hi => .inl ⟨id, hi⟩) (fun hi => .inr (.inl ⟨id, hi⟩))
    · exact .inr (.inr hi)
  · by_contra hi
    rw [he.isReady_of_ne_interrupt hi h0] at h1
    cases h1
  · obtain ⟨hf, hi⟩ := (he.record_cases j).resolve_left hj
    exact ⟨hf, exists_registration hi⟩

/-! ### The tick -/

/-- The reload controller moves the tick by what the counter holds at most. -/
theorem reprogrammed_g {s t : State} (h : scheduleNextInterval s = .ok t) :
    t.g = s.g ∨ t.g = s.g + s.cnt.setWidth 64 := by
  obtain ⟨hp, -⟩ := scheduleNextInterval_cases h
  unfold TimerReprogrammed at hp
  split at hp
  · exact .inl hp.2.2.2.2
  · obtain ⟨-, -, -, ⟨-, -, hg⟩ | ⟨-, -, hg⟩⟩ := hp
    · exact .inl hg
    · exact .inr hg

theorem toNat_add_setWidth {g : Tick} {c : Micros} (h : g.toNat + c.toNat < 2 ^ 64) :
    (g + c.setWidth 64).toNat = g.toNat + c.toNat := by
  rw [BitVec.toNat_add, BitVec.toNat_setWidth_of_le (by decide), Nat.mod_eq_of_lt h]

theorem reprogrammed_g_bounds {s t : State} (h : scheduleNextInterval s = .ok t)
    (hb : s.g.toNat + s.cnt.toNat < 2 ^ 64) :
    s.g.toNat ≤ t.g.toNat ∧ t.g.toNat ≤ s.g.toNat + s.cnt.toNat := by
  have := toNat_add_setWidth hb
  rcases reprogrammed_g h with e | e <;> rw [e] <;> omega

/-- Settles O20: the interrupt adds `cur`, the reload controller at most `CNT`, and nothing else
moves the tick. -/
theorem tickNeverDecreases : Obligations.TickNeverDecreases := by
  intro s t i h hb
  have he := effect_of_exec h
  have e := he.eq_writable
  have same : t.g = s.g →
      s.g.toNat ≤ t.g.toNat ∧ t.g.toNat ≤ s.g.toNat + s.cur.toNat + s.cnt.toNat := by
    intro hg; rw [hg]; omega
  cases he with
  | @started v u hs hf hu =>
    have := reprogrammed_g_bounds hu (by simp [State.initialised]; omega)
    simp [State.initialised] at this
    simp
    omega
  | @registered rep p cb j s2 u v hs hf hv hj hi hu =>
    have hg : s2.g = s.g := by rw [insertSorted_eq hi]; rfl
    have hc : s2.cnt = s.cnt := by rw [insertSorted_eq hi]; rfl
    have := reprogrammed_g_bounds hu (by rw [hg, hc]; omega)
    rw [hg, hc] at this
    simp
    omega
  | @removed i j u hi hs hf hj hu =>
    have hc : (releaseSlot j (removeSorted j s)).cnt = s.cnt := by rw [removeSorted_eq]; rfl
    have := reprogrammed_g_bounds hu (by rw [hc]; simp; omega)
    rw [hc] at this
    simp at this ⊢
    omega
  | @interrupted u t hf hu hl ht =>
    have hg : u.g = s.g + s.cur.setWidth 64 := by rw [fireLoop_eq hl]; rfl
    have hc : u.cnt = s.cnt := by rw [fireLoop_eq hl]; rfl
    have hn := toNat_add_setWidth (g := s.g) (c := s.cur) (by omega)
    have := reprogrammed_g_bounds ht (by rw [hg, hc, hn]; omega)
    rw [hg, hc, hn] at this
    omega
  | answered hi => exact same rfl
  | configFault hs => exact same rfl
  | drained hs ha ht => exact same (by rw [e]; rfl)
  | returned ha ht => exact same (by rw [e]; rfl)
  | reloaded hs hc hk => exact same rfl
  | counted hs hc hk => exact same rfl

end Sys2Proof.Machine

/-! What the invariants say of single states: at reset (10_state.md R46), of Idle and Armed (R43),
of the condition of each slot (R45), and the period of the generation counter (R33). -/

namespace Sys2Proof.Machine

/-- Settles O38. -/
theorem resetValuesOfTheSpec : Obligations.ResetValuesOfTheSpec := by
  unfold Obligations.ResetValuesOfTheSpec
  decide

/-- Settles O39: every slot is free, nothing is scheduled and the block is not started, so no
clause reads an element that R46 gives no value. -/
theorem invariantsAtReset : Obligations.InvariantsAtReset := by
  intro tasks cnt arr psc slot pl xs os
  have hsched : ∀ i, State.isScheduled { State.reset with
      tasks := tasks, cnt := cnt, arr := arr, psc := psc, updSlot := slot, platform := pl,
      stimuli := xs, outputs := os } i = false := fun i => rfl
  have hfree : ∀ i, bit 0x0000FFFF#32 i = true := by decide
  have hready : ∀ i, bit 0#32 i = false := by decide
  refine inv_iff.2 ⟨?_, fun p q _ hq => absurd hq (Nat.not_lt_zero q), fun i => ?_⟩
  · constructor
    case unusedZero => exact fun p hp _ => (by decide : ∀ p < 16, nib 0#64 p = 0#4) p hp
    case periodRange =>
      intro i hi
      rw [hsched i] at hi
      cases hi
    all_goals simp [State.reset, Config.genInit]
  · rw [State.placed, hsched]
    simp [State.isFree, State.isReady, State.reset, hfree, hready, placeOk]

/-- Settles O46: in a started block V8 ties `CEN` and `cur` to `count`. -/
theorem startedBlockIsIdleOrArmed : Obligations.StartedBlockIsIdleOrArmed := by
  intro s h hs
  have hcen := h.armedCount hs
  have hcur := h.idleCur hs
  unfold State.isIdle State.isArmed
  by_cases hc : s.count = 0#5
  · have hoff : s.cen = false := by simpa [hc] using hcen
    simp [hc, hoff, hcur.2 hc]
  · have hne : s.cur ≠ 0#32 := fun h0 => hc (hcur.1 h0)
    simp [hc, hcen.2 hc, hne]

/-! ### Slots -/

/-- The slots in the index are pairwise different occupied slots (V3, V4), so there are no more of
them than of occupied ones. -/
theorem State.PlaceInv.count_le_occupied {s : State} (h : s.PlaceInv) :
    s.count.toNat ≤ ((List.range 16).filter fun i => !s.isFree (BitVec.ofNat 4 i)).length := by
  have hinj : ∀ p ∈ List.range s.count.toNat, ∀ q ∈ List.range s.count.toNat,
      (nib s.sorted p).toNat = (nib s.sorted q).toNat → p = q := by
    intro p hp q hq e
    have e := BitVec.eq_of_toNat_eq e
    rw [List.mem_range] at hp hq
    rcases Nat.lt_trichotomy p q with hlt | rfl | hlt
    · exact absurd e (h.noRepeat p q hlt hq)
    · rfl
    · exact absurd e.symm (h.noRepeat q p hlt hp)
  have hsub : (List.range s.count.toNat).map (fun p => (nib s.sorted p).toNat) ⊆
      (List.range 16).filter fun i => !s.isFree (BitVec.ofNat 4 i) := by
    intro x hx
    obtain ⟨p, hp, rfl⟩ := List.mem_map.1 hx
    have hocc := h.occupied_of_scheduled (isScheduled_nib s (List.mem_range.1 hp))
    rw [List.mem_filter, List.mem_range, BitVec.ofNat_toNat, BitVec.setWidth_eq, hocc]
    exact ⟨slot_toNat_lt _, rfl⟩
  have := ((List.nodup_range.map_on hinj).subperm hsub).length_le
  simpa using this

/-- Settles O47: a slot's condition names its bits, and its bits fit its record. -/
theorem slotLifecycleConditions : Obligations.SlotLifecycleConditions := by
  intro s h
  have hp := (inv_iff.1 h).2
  refine ⟨hp.count_le_occupied, fun i => ?_⟩
  have hi := hp.placed i
  unfold State.placed placeOk at hi
  unfold State.slotCondition
  cases hrep : (s.record i).repeating with
  | true =>
    have hsched : s.isFree i = false → s.isScheduled i = true := fun hf => by
      simpa [hf, hrep] using hi
    split_ifs with hf hs hr hr <;> simp_all
  | false =>
    have hone : s.isFree i = false →
        (s.isScheduled i).toNat + (s.isReady i).toNat + (s.isInFlight i).toNat = 1 := fun hf => by
      simpa [hf, hrep] using hi
    split_ifs with hf hs hr hr
    · simp
    · have := hone (by simpa using hf)
      rw [hs, hr, Bool.toNat_true] at this
      omega
    · simp
    · simp
    · have := hone (by simpa using hf)
      simp_all

/-! ### The generation -/

/-- The generation after `n` advances (43_scheduler_api.md R188 (f)). -/
theorem nextGeneration_iterate_toNat (k : Generation) (n : Nat) :
    (nextGeneration^[n] k).toNat = (k.toNat + 2 * n) % 4096 := by
  induction n with
  | zero => exact (Nat.mod_eq_of_lt k.isLt).symm
  | succ n ih =>
    rw [Function.iterate_succ_apply', nextGeneration, BitVec.toNat_add, ih, Config.generationStep,
      BitVec.toNat_ofNat]
    omega

/-- Settles O37: in steps of 2 modulo 4096 the period is 2048. -/
theorem generationReturnsAfter2048 : Obligations.GenerationReturnsAfter2048 := by
  intro k n
  rw [BitVec.toNat_eq, nextGeneration_iterate_toNat]
  have := k.isLt
  omega

end Sys2Proof.Machine

/-! No operation reads what the spec leaves unspecified (10_state.md R46): from two states that
agree on all the rest, each micro-operation gives the same fault or two states that agree again.
What makes it true is that every record an operation reads belongs to an occupied slot: a scheduled
one (V3), a ready one (V2), or the one in flight. -/

namespace Sys2Proof.Machine

/-! ### Agreement of results -/

/-- Two results of a micro-operation that agree on all the spec gives a value. -/
def Agree (x y : Except Fault State) : Prop :=
  (∃ u v, x = .ok u ∧ y = .ok v ∧ SameSpecified u v) ∨ ∃ f, x = .error f ∧ y = .error f

theorem Agree.ok {u v : State} (h : SameSpecified u v) : Agree (.ok u) (.ok v) :=
  .inl ⟨u, v, rfl, rfl, h⟩

theorem Agree.error (f : Fault) : Agree (.error f) (.error f) := .inr ⟨f, rfl, rfl⟩

/-- Agreeing results continued by operations that agree. -/
theorem Agree.bind {x y : Except Fault State} {f g : State → Except Fault State} (h : Agree x y)
    (hfg : ∀ u v, x = .ok u → SameSpecified u v → Agree (f u) (g v)) :
    Agree (x.bind f) (y.bind g) := by
  rcases h with ⟨u, v, rfl, rfl, h⟩ | ⟨e, rfl, rfl⟩
  · exact hfg u v rfl h
  · exact .error e

/-- Two outcomes of a step that agree on all the spec gives a value. -/
def SameOutcome (x y : Host.Outcome State Fault Refusal) : Prop :=
  (∃ u v, x = .next u ∧ y = .next v ∧ SameSpecified u v) ∨
    (∃ f, x = .fault f ∧ y = .fault f) ∨ ∃ r, x = .refused r ∧ y = .refused r

theorem SameOutcome.next {u v : State} (h : SameSpecified u v) :
    SameOutcome (.next u) (.next v) := .inl ⟨u, v, rfl, rfl, h⟩

theorem Agree.outcome {x y : Except Fault State} (h : Agree x y) :
    SameOutcome (outcome x) (outcome y) := by
  rcases h with ⟨u, v, rfl, rfl, h⟩ | ⟨e, rfl, rfl⟩
  · exact .next h
  · exact .inr (.inl ⟨e, rfl, rfl⟩)

/-! ### Updates of both states -/

/-- V3, every scheduled slot is occupied. -/
def State.ScheduledOccupied (s : State) : Prop :=
  ∀ i, s.isScheduled i = true → s.isFree i = false

theorem State.PlaceInv.scheduledOccupied {s : State} (h : s.PlaceInv) : s.ScheduledOccupied :=
  fun _ => h.occupied_of_scheduled

namespace SameSpecified

variable {a b : State}

theorem isFree_eq (h : SameSpecified a b) (i : Slot) : a.isFree i = b.isFree i := by
  rw [State.isFree, State.isFree, h.stores.1]

theorem isReady_eq (h : SameSpecified a b) (i : Slot) : a.isReady i = b.isReady i := by
  rw [State.isReady, State.isReady, h.stores.2.1]

theorem g32_eq (h : SameSpecified a b) : a.g32 = b.g32 := by
  rw [State.g32, State.g32, h.scheduler.1]

theorem respond (h : SameSpecified a b) (st : Status) (v : BitVec 64) :
    SameSpecified (a.respond st v) (b.respond st v) := by
  obtain ⟨hp, hx, ho⟩ := h.outside
  exact { h with
    outside := ⟨hp, hx, by rw [State.respond_outputs, State.respond_outputs, ho]⟩ }

theorem tail (h : SameSpecified a b) : SameSpecified a.tail b.tail := by
  obtain ⟨hp, hx, ho⟩ := h.outside
  exact { h with outside := ⟨hp, by rw [State.tail_stimuli, State.tail_stimuli, hx], ho⟩ }

theorem withIndex (h : SameSpecified a b) (v : Packed) (c : BitVec 5) :
    SameSpecified { a with sorted := v, count := c } { b with sorted := v, count := c } :=
  { h with stores := ⟨h.stores.1, h.stores.2.1, rfl, rfl⟩ }

theorem withReady (h : SameSpecified a b) (v : Bitmap) :
    SameSpecified { a with ready := v } { b with ready := v } :=
  { h with stores := ⟨h.stores.1, rfl, h.stores.2.2⟩ }

/-- Slots may be freed on both sides. -/
theorem withFree (h : SameSpecified a b) {v : Bitmap}
    (hv : ∀ i, bit v i = false → a.isFree i = false) :
    SameSpecified { a with free := v } { b with free := v } :=
  { h with records := fun i hi => h.records i (hv i hi), stores := ⟨rfl, h.stores.2⟩ }

theorem setRecord (h : SameSpecified a b) (i : Slot) (r : TaskRecord) :
    SameSpecified (a.setRecord i r) (b.setRecord i r) := by
  refine { h with
    records := fun j hj => ?_
    inFlight := fun hact => ⟨(h.inFlight hact).1, ?_⟩ }
  · rw [State.setRecord_record, State.setRecord_record, h.records j hj]
  · rw [State.setRecord_updSlot, State.setRecord_record, State.setRecord_record,
      (h.inFlight hact).2]

theorem releaseSlot (h : SameSpecified a b) (i : Slot) :
    SameSpecified (releaseSlot i a) (releaseSlot i b) := by
  have h2 := (h.withReady (clearBit a.ready i)).withFree (v := setBit a.free i) fun j hj => by
    rw [bit_setBit, Bool.or_eq_false_iff] at hj
    exact hj.1
  unfold Machine.releaseSlot
  rwa [← h.stores.1, ← h.stores.2.1]

theorem removeSorted (h : SameSpecified a b) (i : Slot) :
    SameSpecified (removeSorted i a) (removeSorted i b) := by
  obtain ⟨-, -, hs, hc⟩ := h.stores
  unfold Machine.removeSorted
  rw [← hs, ← hc]
  split
  · exact h
  · exact h.withIndex _ _

/-! ### Index -/

/-- Every deadline that a search compares belongs to an occupied slot. -/
theorem deadlineAt_eq (h : SameSpecified a b) (ho : a.ScheduledOccupied) {p : Nat}
    (hp : p < a.count.toNat) : deadlineAt a p = deadlineAt b p := by
  obtain ⟨-, -, hs, -⟩ := h.stores
  rw [deadlineAt, deadlineAt, getAt, getAt, ← hs, h.records _ (ho _ (isScheduled_nib a hp))]

theorem searchLoop_eq (h : SameSpecified a b) (ho : a.ScheduledOccupied) (new : Micros) :
    ∀ fuel left right, right ≤ a.count.toNat →
      searchLoop a new fuel left right = searchLoop b new fuel left right
  | 0, _, _, _ => rfl
  | fuel + 1, left, right, hr => by
    rw [searchLoop, searchLoop]
    split
    · rw [h.deadlineAt_eq ho (by omega), searchLoop_eq h ho new fuel _ right hr,
        searchLoop_eq h ho new fuel left _ (by omega)]
    · rfl

theorem searchPosition_eq (h : SameSpecified a b) (ho : a.ScheduledOccupied) (new : Micros) :
    searchPosition a new = searchPosition b new := by
  obtain ⟨-, -, -, hc⟩ := h.stores
  rw [searchPosition, searchPosition, ← hc]
  exact h.searchLoop_eq ho new 5 0 _ (Nat.le_refl _)

theorem insertSorted (h : SameSpecified a b) (ho : a.ScheduledOccupied) {i : Slot}
    (hi : a.isFree i = false) : Agree (insertSorted i a) (insertSorted i b) := by
  obtain ⟨-, -, hs, hc⟩ := h.stores
  unfold Machine.insertSorted
  rw [← h.records i hi, ← h.searchPosition_eq ho, ← hs, ← hc]
  split
  · exact .ok (h.withIndex _ _)
  · exact .error _

/-! ### The reload controller -/

theorem frontInterval_eq (h : SameSpecified a b) (ho : a.ScheduledOccupied) (hc : a.count ≠ 0#5) :
    a.frontInterval = b.frontInterval := by
  rw [State.frontInterval, State.frontInterval, h.g32_eq,
    h.deadlineAt_eq ho ((count_ne_zero_iff a).1 hc)]

theorem forceUpdateEvent (h : SameSpecified a b) (hcnt : a.cnt = b.cnt) :
    SameSpecified (forceUpdateEvent a) (forceUpdateEvent b) := by
  refine { h with
    afterStart := fun hs => ⟨rfl, (h.afterStart hs).2⟩
    scheduler := ⟨?_, h.scheduler.2⟩ }
  rw [forceUpdateEvent_g, forceUpdateEvent_g, hcnt, h.scheduler.1]

/-- The timer programmed the same way on both sides. -/
theorem programmed (h : SameSpecified a b) (iv rl : Micros) :
    SameSpecified { a with cur := iv, arr := rl, cen := true }
      { b with cur := iv, arr := rl, cen := true } :=
  { h with
    reload := fun _ => rfl
    scheduler := ⟨h.scheduler.1, rfl, h.scheduler.2.2⟩
    timer := ⟨rfl, h.timer.2⟩ }

/-- The reload controller reads `CNT` only with something scheduled, so only after START; it leaves
`ARR` alone only where it stops the counter. -/
theorem reprogrammed (h : SameSpecified a b) (ho : a.ScheduledOccupied)
    (hs : a.count ≠ 0#5 → a.started = true) :
    Agree (scheduleNextInterval a) (scheduleNextInterval b) := by
  have hcount := h.stores.2.2.2
  by_cases hc : a.count = 0#5
  · rw [scheduleNextInterval_idle hc, scheduleNextInterval_idle (hcount ▸ hc)]
    exact .ok { h with
      reload := fun hcen => absurd hcen Bool.false_ne_true
      scheduler := ⟨h.scheduler.1, rfl, h.scheduler.2.2⟩
      timer := ⟨rfl, h.timer.2⟩ }
  · have hcb : b.count ≠ 0#5 := hcount ▸ hc
    have hcnt := (h.afterStart (hs hc)).1
    have hiv := h.frontInterval_eq ho hc
    by_cases hle : a.cnt ≤ a.frontInterval - 1#32
    · rw [scheduleNextInterval_noOverrun hc hle,
        scheduleNextInterval_noOverrun hcb (by rwa [← hcnt, ← hiv]), ← hiv]
      exact .ok (h.programmed _ _)
    · have hlt := BitVec.not_le.1 hle
      have hf := h.forceUpdateEvent hcnt
      rw [scheduleNextInterval_overrun hc hlt,
        scheduleNextInterval_overrun hcb (by rwa [← hcnt, ← hiv]), ← hf.frontInterval_eq ho hc]
      exact .ok (hf.programmed _ _)

/-! ### Firing -/

theorem front_eq (h : SameSpecified a b) : a.front = b.front := by
  rw [State.front, State.front, h.stores.2.2.1]

theorem frontDue_eq (h : SameSpecified a b) (ho : a.ScheduledOccupied) :
    frontDue a = frontDue b := by
  have hcount := h.stores.2.2.2
  by_cases hc : a.count = 0#5
  · rw [frontDue_of_zero hc, frontDue_of_zero (hcount ▸ hc)]
  · rw [frontDue_of_ne hc, frontDue_of_ne (hcount ▸ hc), h.g32_eq,
      h.deadlineAt_eq ho ((count_ne_zero_iff a).1 hc)]

theorem fired (h : SameSpecified a b) : SameSpecified a.fired b.fired := by
  have h2 := (h.withIndex (a.sorted >>> 4) (a.count - 1#5)).withReady (setBit a.ready a.front)
  unfold State.fired
  rwa [← h.front_eq, ← h.stores.2.1, ← h.stores.2.2.1, ← h.stores.2.2.2]

theorem fireFront (h : SameSpecified a b) (ho : a.ScheduledOccupied) (hst : a.StoreInv)
    (hc : a.count ≠ 0#5) : Agree (fireFront a) (fireFront b) := by
  have hcb : b.count ≠ 0#5 := h.stores.2.2.2 ▸ hc
  have hocc := ho _ (isScheduled_front hc)
  have hrec : a.record a.front = b.record b.front := by rw [← h.front_eq, h.records _ hocc]
  have hof : a.fired.ScheduledOccupied := fun i hi =>
    ho i (isScheduled_of_fired hst.countLe hc hi)
  cases hr : (a.record a.front).repeating with
  | false =>
    rw [fireFront_oneShot hc hr, fireFront_oneShot hcb (hrec ▸ hr)]
    exact .ok h.fired
  | true =>
    rw [fireFront_periodic hc hr, fireFront_periodic hcb (hrec ▸ hr)]
    have h2 := (h.fired.setRecord a.front (a.rearmedRecord a.front)).insertSorted hof hocc
    have e : a.rearmedRecord a.front = b.rearmedRecord b.front := by
      rw [State.rearmedRecord, State.rearmedRecord, hrec, h.g32_eq]
    change Agree
      (Machine.insertSorted a.front (a.fired.setRecord a.front (a.rearmedRecord a.front)))
      (Machine.insertSorted b.front (b.fired.setRecord b.front (b.rearmedRecord b.front)))
    rwa [← e, ← h.front_eq]

theorem fireLoop (h : SameSpecified a b) (hst : a.StoreInv) (hp : a.PlaceInv) (fuel : Nat) :
    Agree (fireLoop fuel a) (fireLoop fuel b) := by
  induction fuel generalizing a b with
  | zero =>
    unfold Machine.fireLoop
    rw [← h.frontDue_eq hp.scheduledOccupied]
    split
    · exact .error _
    · exact .ok h
    · exact .error _
  | succ n ih =>
    have hdue := h.frontDue_eq hp.scheduledOccupied
    by_cases hc : a.count = 0#5
    · have hd := frontDue_of_zero hc
      rw [fireLoop_done _ hd, fireLoop_done _ (hdue ▸ hd)]
      exact .ok h
    · cases hd : decide (sdiff (deadlineAt a 0) a.g32 ≤ 0) <;>
        have hd := (frontDue_of_ne hc).trans (congrArg Except.ok hd)
      · rw [fireLoop_done _ hd, fireLoop_done _ (hdue ▸ hd)]
        exact .ok h
      · rw [fireLoop_more _ hd, fireLoop_more _ (hdue ▸ hd)]
        exact (h.fireFront hp.scheduledOccupied hst hc).bind fun u v hu huv =>
          ih huv (hst.fireFront hu) (hp.fireFront hst.countLe hu)

theorem onTimerUpdate (h : SameSpecified a b) (hst : a.StoreInv) (hp : a.PlaceInv)
    (hs : a.started = true) : Agree (onTimerUpdate a) (onTimerUpdate b) := by
  have h2 : SameSpecified (advanceTick (acknowledgeUpdate a))
      (advanceTick (acknowledgeUpdate b)) := by
    refine { h with
      scheduler := ⟨?_, h.scheduler.2⟩
      timer := ⟨h.timer.1, rfl, h.timer.2.2⟩ }
    rw [advanceTick_g, advanceTick_g, acknowledgeUpdate_g, acknowledgeUpdate_g,
      acknowledgeUpdate_cur, acknowledgeUpdate_cur, h.scheduler.1, h.scheduler.2.1]
  have e : ∀ s, Machine.onTimerUpdate s =
      (Machine.fireLoop 16 (advanceTick (acknowledgeUpdate s))).bind scheduleNextInterval := by
    intro s
    unfold Machine.onTimerUpdate Config.kMaxTasks
    cases Machine.fireLoop 16 (advanceTick (acknowledgeUpdate s)) <;> rfl
  rw [e, e]
  refine (h2.fireLoop (hst.of_eq rfl) (hp.of_eq rfl) 16).bind fun u v hu huv => ?_
  exact huv.reprogrammed (hp.serviced hst hu).scheduledOccupied fun _ => by
    rw [fireLoop_eq hu]; exact hs

/-! ### Registration -/

theorem registering (h : SameSpecified a b) (p : Micros) (cb : Token) (rep : Bool) (j : Slot) :
    SameSpecified (a.registering p cb rep j) (b.registering p cb rep j) := by
  obtain ⟨hg, hcur, hgen⟩ := h.scheduler
  have hnew : newRecord a (clampPeriod p) cb rep j = newRecord b (clampPeriod p) cb rep j := by
    rw [newRecord, newRecord, h.g32_eq, hgen]
  refine { h with
    records := fun k hk => ?_
    inFlight := fun hact => ⟨(h.inFlight hact).1, ?_⟩
    stores := ⟨congrArg (clearBit · j) h.stores.1, h.stores.2⟩
    scheduler := ⟨hg, hcur, ?_⟩ }
  · rw [registering_record, registering_record, hnew]
    split
    · rfl
    · rename_i hne
      have hk : bit (clearBit a.free j) k = false := hk
      refine h.records k ?_
      rw [bit_clearBit, decide_eq_false hne, Bool.not_false, Bool.and_true] at hk
      exact hk
  · change (a.registering p cb rep j).record a.updSlot = (b.registering p cb rep j).record a.updSlot
    rw [registering_record, registering_record, hnew, (h.inFlight hact).2]
  · change (if rep then a.gen else nextGeneration a.gen) =
      if rep then b.gen else nextGeneration b.gen
    rw [hgen]

end SameSpecified

theorem isFree_registering (s : State) (p : Micros) (cb : Token) (rep : Bool) (j k : Slot) :
    (s.registering p cb rep j).isFree k = (s.isFree k && !decide (j = k)) :=
  bit_clearBit s.free j k

/-- A registration with valid arguments and a free slot, as a chain of its steps. -/
theorem registrationBody_eq {s : State} {p : Micros} {cb : Token} (rep : Bool) {j : Slot}
    (hv : registrationValid p cb = true) (hj : s.lowestFree j) :
    registrationBody p cb rep s = (insertSorted j (s.registering p cb rep j)).bind fun s2 =>
      (scheduleNextInterval s2).bind fun u =>
        .ok (u.respond .ok ((u.record j).id.setWidth 64)) := by
  cases hi : insertSorted j (storeRegistration { s with free := clearBit s.free j }
      (clampPeriod p) cb rep j) with
  | error f =>
    simp only [registrationBody, registerCommon, hv, allocateSlot_of_lowestFree hj, if_true, hi]
    exact (congrArg (Except.bind · _) hi).symm
  | ok s2 =>
    cases hs : scheduleNextInterval s2 <;>
      simp only [registrationBody, registerCommon, hv, allocateSlot_of_lowestFree hj, if_true, hi,
        hs, State.registering] <;>
      simp only [Except.bind, hs]

namespace SameSpecified

variable {a b : State}

theorem lowestFree (h : SameSpecified a b) {i : Slot} (hi : a.lowestFree i) : b.lowestFree i := by
  unfold State.lowestFree at hi ⊢
  simpa only [h.isFree_eq] using hi

/-- The slot a registration takes is occupied from then on, so its new record may be read. -/
theorem registrationBody (h : SameSpecified a b) (hst : a.StoreInv) (hp : a.PlaceInv)
    (hs : a.started = true) (p : Micros) (cb : Token) (rep : Bool) :
    Agree (registrationBody p cb rep a) (registrationBody p cb rep b) := by
  by_cases hv : registrationValid p cb = true ∧ a.free ≠ 0#32
  · obtain ⟨hv, hfree⟩ := hv
    obtain ⟨j, hj, -⟩ := allocateSlot_lowest hst.freeHigh hfree
    rw [registrationBody_eq rep hv hj, registrationBody_eq rep hv (h.lowestFree hj)]
    have hor : (a.registering p cb rep j).ScheduledOccupied := fun k hk => by
      rw [isFree_registering, hp.occupied_of_scheduled hk, Bool.false_and]
    have hjr : (a.registering p cb rep j).isFree j = false := by simp [isFree_registering]
    refine ((h.registering p cb rep j).insertSorted hor hjr).bind fun s2 v2 hi h2 => ?_
    have hfree2 : ∀ k, s2.isFree k = (a.registering p cb rep j).isFree k := fun k => by
      rw [insertSorted_eq hi]; rfl
    have ho2 : s2.ScheduledOccupied := fun k hk => by
      rw [isScheduled_insertSorted hi, Bool.or_eq_true, decide_eq_true_iff] at hk
      rw [hfree2]
      rcases hk with hk | rfl
      · exact hor k hk
      · exact hjr
    have hs2 : s2.started = true := by rw [insertSorted_eq hi]; exact hs
    refine (h2.reprogrammed ho2 fun _ => hs2).bind fun u v hu huv => ?_
    have hju : u.isFree j = false := by
      obtain ⟨-, e⟩ := scheduleNextInterval_cases hu
      rw [e]
      exact (hfree2 j).trans hjr
    rw [← huv.records j hju]
    exact .ok (huv.respond _ _)
  · have hfail : registrationValid p cb = false ∨ a.free = 0#32 := by
      rw [not_and_or, not_not, Bool.not_eq_true] at hv
      exact hv
    simp only [Machine.registrationBody, registerCommon_failure hfail,
      registerCommon_failure (s := b) (h.stores.1 ▸ hfail)]
    exact .ok (h.respond _ _)

/-! ### Cancellation, drain, timer -/

/-- A cancellation reads the record of an occupied slot only. -/
theorem unregisterChecks_eq (h : SameSpecified a b) (id : Handle) :
    unregisterChecks id a = unregisterChecks id b := by
  rw [unregisterChecks, unregisterChecks, h.isFree_eq]

theorem cancelChecks_eq (h : SameSpecified a b) (id : Handle) :
    cancelChecks id a = cancelChecks id b := by
  rw [cancelChecks, cancelChecks, ← h.isFree_eq]
  cases hf : a.isFree (handleSlot id) with
  | true => rfl
  | false => rw [h.records _ hf]

theorem removalBody (h : SameSpecified a b) (hst : a.StoreInv) (hp : a.PlaceInv)
    (hs : a.started = true) (checks : Bool) (i : Slot) :
    Agree (removalBody checks i a) (removalBody checks i b) := by
  have ho := (hp.removed hst.countLe i).scheduledOccupied
  have hs' : (Machine.releaseSlot i (Machine.removeSorted i a)).started = true := by
    rw [removeSorted_eq]; exact hs
  have h2 := ((h.removeSorted i).releaseSlot i).reprogrammed ho fun _ => hs'
  unfold Machine.removalBody removeCommon
  split
  · rcases h2 with ⟨u, v, hu, hv, huv⟩ | ⟨f, hu, hv⟩
    · rw [hu, hv]
      exact .ok (huv.respond _ _)
    · rw [hu, hv]
      exact .error f
  · exact .ok (h.respond _ _)

/-- A drain step reads the record of a ready slot, which is occupied. -/
theorem drainStep (h : SameSpecified a b) (hst : a.StoreInv)
    (ho : ∀ i, a.isReady i = true → a.isFree i = false) :
    Agree (drainStep a) (drainStep b) := by
  obtain ⟨hp, hx, hout⟩ := h.outside
  have hready := h.stores.2.1
  by_cases h0 : a.ready = 0#32
  · rw [drainStep_empty h0, drainStep_empty (hready ▸ h0)]
    refine .ok (SameSpecified.respond ?_ _ _)
    exact { h with
      inFlight := fun hact => absurd hact Bool.false_ne_true
      latches := ⟨h.latches.1, h.latches.2.1, rfl⟩ }
  · obtain ⟨i, hi, e⟩ := drainStep_lowest hst.readyHigh h0
    have hib : b.lowestReady i := by
      unfold State.lowestReady at hi ⊢
      simpa only [h.isReady_eq] using hi
    have hrec := h.records i (ho i hi.1)
    rw [e, drainStep_of_lowestReady hib]
    have hemit : a.outputs ++ [.dispatch (a.record i).callback i] =
        b.outputs ++ [.dispatch (b.record i).callback i] := by rw [hrec, hout]
    exact .ok { h with
      inFlight := fun _ => ⟨rfl, hrec⟩
      stores := ⟨h.stores.1, congrArg (clearBit · i) hready, h.stores.2.2⟩
      latches := ⟨h.latches.1, h.latches.2.1, rfl⟩
      outside := ⟨hp, hx, hemit⟩ }

/-- The end of a callback reads the record in flight, free or not (log 16). -/
theorem finishCallback (h : SameSpecified a b) (ha : a.updActive = true) :
    SameSpecified (finishCallback a) (finishCallback b) := by
  obtain ⟨hslot, hrec⟩ := h.inFlight ha
  unfold Machine.finishCallback
  rw [← hslot, ← hrec]
  split
  · exact h
  · exact h.releaseSlot _

theorem countTick (h : SameSpecified a b) (hs : a.started = true) (hc : a.cen = true) :
    Agree (countTick a) (countTick b) := by
  obtain ⟨hcnt, hpsc⟩ := h.afterStart hs
  have harr := h.reload hc
  unfold Machine.countTick
  rw [← hcnt, ← harr]
  split
  · exact .ok { h with
      afterStart := fun _ => ⟨rfl, hpsc⟩
      reload := fun _ => rfl
      timer := ⟨h.timer.1, rfl, h.timer.2.2⟩ }
  · split
    · exact .ok { h with
        afterStart := fun _ => ⟨rfl, hpsc⟩
        reload := fun _ => rfl }
    · exact .error _

/-- START writes `CNT` and `PSC` before anything reads them. -/
theorem startBody (h : SameSpecified a b) (hp : a.PlaceInv) :
    Agree (startBody a) (startBody b) := by
  have hclock : prescalerOf b.platform = prescalerOf a.platform := by rw [h.outside.1]
  unfold Machine.startBody configurePrescaler
  rw [hclock]
  cases prescalerOf a.platform with
  | none =>
    refine .ok (SameSpecified.respond ?_ _ _)
    exact { h with latches := ⟨h.latches.1, rfl, h.latches.2.2⟩ }
  | some v =>
    have hi : SameSpecified (a.initialised v) (b.initialised v) :=
      { h with
        afterStart := fun _ => ⟨rfl, rfl⟩
        timer := ⟨h.timer.1, rfl, rfl⟩
        latches := ⟨rfl, h.latches.2⟩ }
    have hsched := hi.reprogrammed hp.scheduledOccupied fun _ => rfl
    unfold State.initialised at hsched
    rcases hsched with ⟨u, w, hu, hw, huw⟩ | ⟨f, hu, hw⟩ <;> simp only [hu, hw]
    · exact .ok (huw.respond _ _)
    · exact .error f

/-! ### Every operation -/

theorem gateAccepts_eq (h : SameSpecified a b) (c : CommandClass) :
    a.gateAccepts c = b.gateAccepts c := by
  obtain ⟨hs, hf, ha⟩ := h.latches
  rw [State.gateAccepts, State.gateAccepts, hs, hf, ha]

/-- A host command behind the gate. -/
theorem hostCommand (h : SameSpecified a b) {c : CommandClass}
    {f g : State → Except Fault State} (hfg : a.gateAccepts c = true → Agree (f a) (g b)) :
    SameOutcome (hostCommand c f a) (hostCommand c g b) := by
  cases hg : a.gateAccepts c with
  | true =>
    rw [hostCommand_accepted hg, hostCommand_accepted ((h.gateAccepts_eq c).symm.trans hg)]
    exact (hfg hg).outcome
  | false =>
    rw [hostCommand_refused hg, hostCommand_refused ((h.gateAccepts_eq c).symm.trans hg)]
    exact .next (h.respond _ _)

/-- An environment event, enabled on both sides or on neither. -/
theorem environmentEvent {x y : Bool} (hxy : x = y) {r : Refusal}
    {f g : State → Except Fault State} (hfg : x = true → Agree (f a) (g b)) :
    SameOutcome (environmentEvent x r f a) (environmentEvent y r g b) := by
  subst hxy
  unfold Machine.environmentEvent
  split
  · rename_i hx
    exact (hfg hx).outcome
  · exact .inr (.inr ⟨r, rfl, rfl⟩)

/-- Every operation gives the same outcome on both sides. -/
theorem exec (h : SameSpecified a b) (hinv : a.Inv) (i : Instr) :
    SameOutcome (exec i a) (exec i b) := by
  obtain ⟨hcore, hp⟩ := inv_iff.1 hinv
  have hst := hcore.toStoreInv
  have hstarted : a.gateAccepts .callable = true → a.started = true := fun hg =>
    (gateAccepts_callable.1 hg).2
  cases i with
  | start => exact h.hostCommand fun _ => h.startBody hp
  | registerTask p cb =>
    exact h.hostCommand fun hg => h.registrationBody hst hp (hstarted hg) p cb true
  | setTimeout p cb =>
    exact h.hostCommand fun hg => h.registrationBody hst hp (hstarted hg) p cb false
  | unregisterTask id =>
    refine h.hostCommand fun hg => ?_
    rw [← h.unregisterChecks_eq]
    exact h.removalBody hst hp (hstarted hg) _ _
  | cancelTimeout id =>
    refine h.hostCommand fun hg => ?_
    rw [← h.cancelChecks_eq]
    exact h.removalBody hst hp (hstarted hg) _ _
  | update => exact h.hostCommand fun _ => h.drainStep hst fun _ => hp.occupied_of_ready
  | getGlobalTick =>
    refine h.hostCommand (c := .callable) (f := fun s => .ok (s.respond .ok s.g))
      (g := fun s => .ok (s.respond .ok s.g)) fun _ => ?_
    rw [h.scheduler.1]
    exact .ok (h.respond _ _)
  | onTimerUpdate =>
    refine environmentEvent ?_ fun he => h.onTimerUpdate hst hp ?_
    · rw [State.interruptEnabled, State.interruptEnabled, State.irqLine, State.irqLine,
        h.timer.2.1, h.timer.2.2]
    · rw [State.interruptEnabled, State.irqLine, Bool.and_eq_true] at he
      exact hcore.started_of_uif he.1
  | cbReturn =>
    refine environmentEvent h.latches.2.2 fun ha => ?_
    exact (h.finishCallback ha).drainStep hst.finishCallback fun _ =>
      (hp.finishCallback ha).occupied_of_ready
  | tick =>
    refine environmentEvent ?_ fun he => ?_
    · rw [State.tickEnabled, State.tickEnabled, h.latches.1, h.latches.2.1, h.timer.1]
    · rw [State.tickEnabled, Bool.and_eq_true, Bool.and_eq_true] at he
      exact h.countTick he.1.1 he.2

/-- Every step gives the same outcome on both sides. -/
theorem step (h : SameSpecified a b) (hinv : a.Inv) : SameOutcome (step a) (step b) := by
  have htail : a.tail.Inv := hinv.withStreams _ _
  unfold Machine.step
  rw [← h.outside.2.1]
  split
  · exact .next h
  · split
    · exact h.tail.exec htail _
    · exact .next (h.tail.respond _ _)
    · exact .inr (.inr ⟨_, rfl, rfl⟩)

end SameSpecified

/-- Settles O48. -/
theorem unspecifiedValuesAreNeverRead : Obligations.UnspecifiedValuesAreNeverRead := by
  intro s t hinv h
  rcases h.step hinv with ⟨u, v, hu, hv, huv⟩ | ⟨f, hu, hv⟩ | ⟨r, hu, hv⟩
  all_goals rw [hu]
  · exact ⟨v, hv, huv⟩
  · exact hv
  · exact hv

end Sys2Proof.Machine

/-! The two kinds of handle (20_memory.md R76, R83; 70_reset_and_hazards.md R294) and what a step
does with a stimulus it can read (20_memory.md R85). -/

namespace Sys2Proof.Machine

/-! ### Handles as numbers -/

@[simp] theorem toNat_periodicHandle (i : Slot) : (periodicHandle i).toNat = i.toNat :=
  BitVec.toNat_setWidth_of_le (by decide)

theorem toNat_oneShotHandle (k : Generation) (i : Slot) :
    (oneShotHandle k i).toNat = i.toNat + k.toNat * 16 := by
  rw [oneShotHandle, BitVec.toNat_append, ← Nat.shiftLeft_add_eq_or_of_lt i.isLt,
    Nat.shiftLeft_eq, Nat.add_comm]

@[simp] theorem toNat_handleSlot (id : Handle) : (handleSlot id).toNat = id.toNat % 16 := by
  simp [handleSlot]

@[simp] theorem handleSlot_periodicHandle (i : Slot) : handleSlot (periodicHandle i) = i := by
  apply BitVec.eq_of_toNat_eq
  rw [toNat_handleSlot, toNat_periodicHandle, Nat.mod_eq_of_lt i.isLt]

@[simp] theorem handleSlot_oneShotHandle (k : Generation) (i : Slot) :
    handleSlot (oneShotHandle k i) = i := by
  apply BitVec.eq_of_toNat_eq
  rw [toNat_handleSlot, toNat_oneShotHandle, Nat.add_mul_mod_self_right, Nat.mod_eq_of_lt i.isLt]

/-- The pair of generation and slot can be read back from a one-shot handle. -/
theorem oneShotHandle_inj {k l : Generation} {i j : Slot} :
    oneShotHandle k i = oneShotHandle l j ↔ k = l ∧ i = j := by
  constructor
  · intro h
    have hslot : i = j := by
      rw [← handleSlot_oneShotHandle k i, h, handleSlot_oneShotHandle]
    have hnat := congrArg BitVec.toNat h
    rw [toNat_oneShotHandle, toNat_oneShotHandle, hslot] at hnat
    exact ⟨BitVec.eq_of_toNat_eq (by omega), hslot⟩
  · rintro ⟨rfl, rfl⟩
    rfl

/-- `INVALID_ID` has the layout of a one-shot handle: the collision of R294. -/
theorem invalidId_eq_oneShotHandle : Config.invalidId = oneShotHandle 15#12 15#4 := by decide

/-- Above the range of periodic ids (20_memory.md R83); only generation 0 could fall into it. -/
theorem oneShotHandle_ge (i : Slot) {k : Generation} (hk : k ≠ 0#12) :
    16 ≤ (oneShotHandle k i).toNat := by
  have hpos : 0 < k.toNat :=
    Nat.pos_of_ne_zero fun h => hk (BitVec.eq_of_toNat_eq h)
  rw [toNat_oneShotHandle]
  omega

/-- Settles O36: an odd generation is not 0, and `INVALID_ID` is the one-shot handle of generation
15 and slot 15, which no other pair gives. -/
theorem handleKindsNeverOverlap : Obligations.HandleKindsNeverOverlap := by
  refine ⟨fun i => ⟨toNat_periodicHandle i, handleSlot_periodicHandle i⟩, fun k i hodd => ?_⟩
  have hk : k ≠ 0#12 := by
    rintro rfl
    exact absurd hodd (by decide)
  refine ⟨handleSlot_oneShotHandle k i, toNat_oneShotHandle k i, oneShotHandle_ge i hk, ?_⟩
  rw [invalidId_eq_oneShotHandle]
  exact oneShotHandle_inj

/-! ### Steps -/

/-- A step performs what it reads from the first waiting stimulus, on the state without it. -/
theorem step_of_readStimulus_perform {s : State} {x : Stimulus} {rest : List Stimulus} {i : Instr}
    (hs : s.stimuli = x :: rest) (hx : readStimulus x = .perform i) :
    step s = exec i { s with stimuli := rest } := by
  simp only [step, State.tail, hs, hx, List.tail_cons]

/-- Settles O7. -/
theorem stepPerformsDecodedStimulus : Obligations.StepPerformsDecodedStimulus :=
  fun _ _ _ _ hs hdecode hsource =>
    step_of_readStimulus_perform hs (readStimulus_of_decode hdecode hsource)

end Sys2Proof.Machine

/-! The words of 30_encoding.md: decoding and encoding undo each other (R101 to R103), the words
that encode a stimulus are those the three checks of well-formedness accept (R108) and those a row
of the opcode map covers (R102), and the two fields of a response word (R104). -/

namespace Sys2Proof

/-! ### Decoding an encoded stimulus -/

theorem decodePlain_packWord (i : Instr) (op : BitVec 4) :
    decodePlain i (packWord op 0#32 0#32) = .ok i := by
  simp [decodePlain]

/-- The upper half of a field is zero exactly when the field is below 2^16. -/
theorem highHalf_eq_zero_iff_lt (a : BitVec 32) :
    a.extractLsb' 16 16 = 0#16 ↔ a.toNat < 2 ^ 16 := by
  rw [← BitVec.toNat_inj, BitVec.extractLsb'_toNat, Nat.shiftRight_eq_div_pow]
  simp
  omega

theorem toNat_handle_lt (id : Handle) : (id.setWidth 32).toNat < 2 ^ 16 := by
  rw [BitVec.toNat_setWidth_of_le (by decide)]
  exact id.isLt

theorem decodeHandle_packWord (f : Handle → Instr) (op : BitVec 4) (id : Handle) :
    decodeHandle f (packWord op (id.setWidth 32) 0#32) = .ok (f id) := by
  have hhigh : (id.setWidth 32).extractLsb' 16 16 = 0#16 :=
    (highHalf_eq_zero_iff_lt _).2 (toNat_handle_lt id)
  simp [decodeHandle, hhigh]

/-- The decoder reads back what the encoder wrote, with every operand at every value. -/
theorem decode_encode (i : Instr) : decode (encode i) = .ok i := by
  cases i with
  | registerTask p cb => simp [encode, decode]
  | setTimeout p cb => simp [encode, decode]
  | unregisterTask id => simp [encode, decode, decodeHandle_packWord]
  | cancelTimeout id => simp [encode, decode, decodeHandle_packWord]
  | _ => simp [encode, decode, decodePlain_packWord]

/-- Settles O2. -/
theorem decodeOfEncode : Obligations.DecodeOfEncode := decode_encode

/-- Settles O1: each of the ten words is the encoding of its stimulus. -/
theorem specWordsDecode : Obligations.SpecWordsDecode :=
  ⟨decode_encode .start, decode_encode (.registerTask 10#32 0xCB0#32),
    decode_encode (.setTimeout 500#32 0xCB1#32), decode_encode (.unregisterTask 1#16),
    decode_encode (.cancelTimeout 0x10#16), decode_encode .update, decode_encode .getGlobalTick,
    decode_encode .onTimerUpdate, decode_encode .cbReturn, decode_encode .tick⟩

/-! ### Encoding a decoded word -/

/-- A word is the one laid out from the fields read from it. -/
theorem packWord_of_fields {w : StimulusWord} {op : BitVec 4} {a b : BitVec 32}
    (ho : (opField w).toNat = op.toNat) (ha : aField w = a) (hb : bField w = b) :
    packWord op a b = w := by
  rw [← BitVec.eq_of_toNat_eq ho, ← ha, ← hb, packWord_fields]

theorem encode_of_decodePlain {i j : Instr} {w : StimulusWord} (op : BitVec 4)
    (he : encode i = packWord op 0#32 0#32) (ho : (opField w).toNat = op.toNat)
    (h : decodePlain i w = .ok j) : encode j = w := by
  obtain ⟨rfl, ha, hb⟩ := decodePlain_ok h
  exact he.trans (packWord_of_fields ho ha hb)

theorem encode_of_decodeHandle {f : Handle → Instr} {j : Instr} {w : StimulusWord} (op : BitVec 4)
    (he : ∀ id, encode (f id) = packWord op (id.setWidth 32) 0#32)
    (ho : (opField w).toNat = op.toNat) (h : decodeHandle f w = .ok j) : encode j = w := by
  obtain ⟨rfl, ha, hb⟩ := decodeHandle_ok h
  exact (he _).trans (packWord_of_fields ho ha hb)

/-- A word that decodes is the encoding of what it decodes to: no bit of it is ignored. -/
theorem encode_of_decode {w : StimulusWord} {i : Instr} (h : decode w = .ok i) : encode i = w := by
  unfold decode at h
  split at h
  case h_1 hop => exact encode_of_decodePlain 0#4 rfl hop h
  case h_2 hop => cases h; exact packWord_of_fields hop rfl rfl
  case h_3 hop => cases h; exact packWord_of_fields hop rfl rfl
  case h_4 hop => exact encode_of_decodeHandle 3#4 (fun _ => rfl) hop h
  case h_5 hop => exact encode_of_decodeHandle 4#4 (fun _ => rfl) hop h
  case h_6 hop => exact encode_of_decodePlain 5#4 rfl hop h
  case h_7 hop => exact encode_of_decodePlain 6#4 rfl hop h
  case h_8 hop => exact encode_of_decodePlain 8#4 rfl hop h
  case h_9 hop => exact encode_of_decodePlain 9#4 rfl hop h
  case h_10 hop => exact encode_of_decodePlain 10#4 rfl hop h
  case h_11 => cases h

/-- Settles O3. -/
theorem encodeOfDecode : Obligations.EncodeOfDecode := fun _ _ => encode_of_decode

theorem decode_eq_ok_iff {w : StimulusWord} {i : Instr} : decode w = .ok i ↔ encode i = w :=
  ⟨encode_of_decode, fun h => h ▸ decode_encode i⟩

/-! ### The rows of the opcode map -/

/-- A 32-bit value below 2^16 is a handle with zeros above it. -/
theorem exists_handle {a : BitVec 32} (h : a.toNat < 2 ^ 16) :
    ∃ id : Handle, a = id.setWidth 32 :=
  ⟨a.setWidth 16, BitVec.eq_of_toNat_eq (by simp; omega)⟩

/-- The row of an operation without operands: every bit must match. -/
def plainRow (m : String) (op : BitVec 4) : OpcodeRow :=
  ⟨m, packWord op 0#32 0#32, packWord 15#4 0xFFFFFFFF#32 0xFFFFFFFF#32⟩

/-- The row of an operation with a handle: `a[15:0]` may be anything. -/
def handleRow (m : String) (op : BitVec 4) : OpcodeRow :=
  ⟨m, packWord op 0#32 0#32, packWord 15#4 0xFFFF0000#32 0xFFFFFFFF#32⟩

/-- The row of a registration: `a` and `b` may be anything. -/
def operandRow (m : String) (op : BitVec 4) : OpcodeRow :=
  ⟨m, packWord op 0#32 0#32, packWord 15#4 0#32 0#32⟩

@[simp] theorem plainRow_mnemonic (m : String) (op : BitVec 4) : (plainRow m op).mnemonic = m := rfl
@[simp] theorem handleRow_mnemonic (m : String) (op : BitVec 4) :
    (handleRow m op).mnemonic = m := rfl
@[simp] theorem operandRow_mnemonic (m : String) (op : BitVec 4) :
    (operandRow m op).mnemonic = m := rfl

/-- The opcode map has rows of these three forms only. -/
theorem opcodeRows_eq : opcodeRows =
    [plainRow "START" 0#4, operandRow "REGISTER_TASK" 1#4, operandRow "SET_TIMEOUT" 2#4,
      handleRow "UNREGISTER_TASK" 3#4, handleRow "CANCEL_TIMEOUT" 4#4, plainRow "UPDATE" 5#4,
      plainRow "GET_GLOBAL_TICK" 6#4, plainRow "ON_TIMER_UPDATE" 8#4, plainRow "CB_RETURN" 9#4,
      plainRow "TICK" 10#4] := by
  decide

theorem packWord_inj {o p : BitVec 4} {a b c d : BitVec 32} :
    packWord o a b = packWord p c d ↔ o = p ∧ a = c ∧ b = d := by
  constructor
  · intro h
    exact ⟨by simpa using congrArg opField h, by simpa using congrArg aField h,
      by simpa using congrArg bField h⟩
  · rintro ⟨rfl, rfl, rfl⟩
    rfl

theorem packWord_and (o p : BitVec 4) (a b c d : BitVec 32) :
    packWord o a b &&& packWord p c d = packWord (o &&& p) (a &&& c) (b &&& d) := by
  rw [packWord, packWord, packWord, BitVec.and_append, BitVec.and_append]

theorem op_and_mask (o : BitVec 4) : o &&& 15#4 = o := BitVec.and_allOnes

theorem field_and_mask (a : BitVec 32) : a &&& 0xFFFFFFFF#32 = a := BitVec.and_allOnes

/-- The bits above a handle are zero exactly when the field is below 2^16. -/
theorem field_and_highMask (a : BitVec 32) : a &&& 0xFFFF0000#32 = 0#32 ↔ a.toNat < 2 ^ 16 := by
  have hsplit : a.extractLsb' 16 16 ++ a.extractLsb' 0 16 = a :=
    (BitVec.extractLsb'_append_extractLsb'_eq_extractLsb' (by rfl)).trans BitVec.extractLsb'_eq_self
  have hmask : a &&& 0xFFFF0000#32 = a.extractLsb' 16 16 ++ 0#16 := by
    conv_lhs => rw [← hsplit, show 0xFFFF0000#32 = BitVec.allOnes 16 ++ 0#16 by decide]
    rw [BitVec.and_append, BitVec.and_allOnes, BitVec.and_zero]
  rw [← highHalf_eq_zero_iff_lt, hmask, show 0#32 = 0#16 ++ 0#16 by decide]
  exact BitVec.append_left_inj _

@[simp] theorem plainRow_covers_packWord (m : String) (op o : BitVec 4) (a b : BitVec 32) :
    (plainRow m op).covers (packWord o a b) = decide (o = op ∧ a = 0#32 ∧ b = 0#32) := by
  rw [OpcodeRow.covers, plainRow, packWord_and, op_and_mask, field_and_mask, field_and_mask,
    Bool.beq_eq_decide_eq, decide_eq_decide]
  exact packWord_inj

theorem handleRow_covers_packWord (m : String) (op o : BitVec 4) (a b : BitVec 32) :
    (handleRow m op).covers (packWord o a b) = decide (o = op ∧ a.toNat < 2 ^ 16 ∧ b = 0#32) := by
  rw [OpcodeRow.covers, handleRow, packWord_and, op_and_mask, field_and_mask,
    Bool.beq_eq_decide_eq, decide_eq_decide, packWord_inj, field_and_highMask]

theorem handleRow_covers_handle (m : String) (op o : BitVec 4) (id : Handle) :
    (handleRow m op).covers (packWord o (id.setWidth 32) 0#32) = decide (o = op) := by
  rw [handleRow_covers_packWord, decide_eq_decide]
  exact and_iff_left ⟨toNat_handle_lt id, rfl⟩

@[simp] theorem operandRow_covers_packWord (m : String) (op o : BitVec 4) (a b : BitVec 32) :
    (operandRow m op).covers (packWord o a b) = decide (o = op) := by
  rw [OpcodeRow.covers, operandRow, packWord_and, op_and_mask, BitVec.and_zero, BitVec.and_zero,
    Bool.beq_eq_decide_eq, decide_eq_decide, packWord_inj]
  simp

/-- The encoding of a stimulus is covered by its own row alone. -/
theorem rowsCovering_encode (i : Instr) :
    (opcodeRows.filter (fun r => r.covers (encode i))).map (fun r => r.mnemonic) =
      [i.mnemonic] := by
  rw [opcodeRows_eq]
  cases i with
  | unregisterTask id => simp [encode, Instr.mnemonic, handleRow_covers_handle]
  | cancelTimeout id => simp [encode, Instr.mnemonic, handleRow_covers_handle]
  | _ => simp [encode, Instr.mnemonic, handleRow_covers_packWord]

theorem exists_encode_of_plainRow {m : String} {op : BitVec 4} {i : Instr} {w : StimulusWord}
    (he : encode i = packWord op 0#32 0#32) (h : (plainRow m op).covers w = true) :
    ∃ i, encode i = w := by
  rw [← packWord_fields w] at h ⊢
  rw [plainRow_covers_packWord, decide_eq_true_iff] at h
  obtain ⟨ho, ha, hb⟩ := h
  exact ⟨i, by rw [he, ho, ha, hb]⟩

theorem exists_encode_of_handleRow {m : String} {op : BitVec 4} {f : Handle → Instr}
    {w : StimulusWord} (he : ∀ id, encode (f id) = packWord op (id.setWidth 32) 0#32)
    (h : (handleRow m op).covers w = true) : ∃ i, encode i = w := by
  rw [← packWord_fields w] at h ⊢
  rw [handleRow_covers_packWord, decide_eq_true_iff] at h
  obtain ⟨ho, ha, hb⟩ := h
  obtain ⟨id, hid⟩ := exists_handle ha
  exact ⟨f id, by rw [he, ho, hid, hb]⟩

theorem exists_encode_of_operandRow {m : String} {op : BitVec 4} {f : Micros → Token → Instr}
    {w : StimulusWord} (he : ∀ p cb, encode (f p cb) = packWord op p cb)
    (h : (operandRow m op).covers w = true) : ∃ i, encode i = w := by
  rw [← packWord_fields w] at h ⊢
  rw [operandRow_covers_packWord, decide_eq_true_iff] at h
  exact ⟨f (aField w) (bField w), by rw [he, h]⟩

/-- Only encodings of stimuli are covered by a row. -/
theorem exists_encode_of_covers {r : OpcodeRow} (hr : r ∈ opcodeRows) {w : StimulusWord}
    (h : r.covers w = true) : ∃ i, encode i = w := by
  rw [opcodeRows_eq] at hr
  simp only [List.mem_cons, List.not_mem_nil, or_false] at hr
  rcases hr with rfl | rfl | rfl | rfl | rfl | rfl | rfl | rfl | rfl | rfl
  · exact exists_encode_of_plainRow (i := .start) rfl h
  · exact exists_encode_of_operandRow (f := .registerTask) (fun _ _ => rfl) h
  · exact exists_encode_of_operandRow (f := .setTimeout) (fun _ _ => rfl) h
  · exact exists_encode_of_handleRow (f := .unregisterTask) (fun _ => rfl) h
  · exact exists_encode_of_handleRow (f := .cancelTimeout) (fun _ => rfl) h
  · exact exists_encode_of_plainRow (i := .update) rfl h
  · exact exists_encode_of_plainRow (i := .getGlobalTick) rfl h
  · exact exists_encode_of_plainRow (i := .onTimerUpdate) rfl h
  · exact exists_encode_of_plainRow (i := .cbReturn) rfl h
  · exact exists_encode_of_plainRow (i := .tick) rfl h

/-- Settles O4: a word that decodes is the encoding of its stimulus, which its own row alone
covers; a word that is rejected encodes nothing, and no row covers it. -/
theorem opcodeRowsAgreeWithDecoder : Obligations.OpcodeRowsAgreeWithDecoder := by
  intro w
  cases hw : decode w with
  | ok i =>
    rw [← encode_of_decode hw]
    exact rowsCovering_encode i
  | error e =>
    simp only [List.map_eq_nil_iff, List.filter_eq_nil_iff]
    intro r hr hc
    obtain ⟨i, rfl⟩ := exists_encode_of_covers hr hc
    rw [decode_encode] at hw
    cases hw

/-! ### Response words -/

theorem statusOfCode_statusCode (st : Status) : statusOfCode (statusCode st) = st := by
  cases st <;> rfl

theorem statusCode_statusOfCode : ∀ c : BitVec 2, statusCode (statusOfCode c) = c := by decide

/-- The value field of a response word. -/
theorem value_encodeResponse (r : Response) : (encodeResponse r).extractLsb' 0 64 = r.value :=
  BitVec.extractLsb'_append_eq_right

/-- The status field of a response word. -/
theorem status_encodeResponse (r : Response) :
    (encodeResponse r).extractLsb' 64 2 = statusCode r.status :=
  BitVec.extractLsb'_append_eq_left

theorem decodeResponse_encodeResponse (r : Response) : decodeResponse (encodeResponse r) = r := by
  rw [decodeResponse, value_encodeResponse, status_encodeResponse, statusOfCode_statusCode]

theorem encodeResponse_decodeResponse (w : ResponseWord) :
    encodeResponse (decodeResponse w) = w := by
  rw [encodeResponse, decodeResponse, statusCode_statusOfCode]
  exact (BitVec.extractLsb'_append_extractLsb'_eq_extractLsb' (by rfl)).trans
    BitVec.extractLsb'_eq_self

/-- Settles O5. -/
theorem responseWordLayout : Obligations.ResponseWordLayout := by
  refine ⟨fun r => ⟨value_encodeResponse r, ?_, decodeResponse_encodeResponse r⟩,
    encodeResponse_decodeResponse⟩
  rw [status_encodeResponse]
  cases r.status <;> rfl

/-! ### Well-formed stimuli -/

/-- A word with an assigned opcode and zeros in its unused fields encodes an operation. -/
theorem exists_encode_of_fields {w : StimulusWord} (ho : opcodeAssigned (opField w) = true)
    (hu : unusedFieldsZero w = true) : ∃ i, encode i = w := by
  simp only [opcodeAssigned, Bool.or_eq_true, Bool.and_eq_true, decide_eq_true_iff] at ho
  unfold unusedFieldsZero at hu
  split_ifs at hu with hreg hcancel
  · rcases hreg with hop | hop
    · exact ⟨.registerTask _ _, packWord_of_fields hop rfl rfl⟩
    · exact ⟨.setTimeout _ _, packWord_of_fields hop rfl rfl⟩
  · simp only [Bool.and_eq_true, decide_eq_true_iff, beq_iff_eq] at hu
    obtain ⟨ha, hb⟩ := hu
    obtain ⟨id, hid⟩ := exists_handle ha
    rcases hcancel with hop | hop
    · exact ⟨.unregisterTask id, packWord_of_fields hop hid hb⟩
    · exact ⟨.cancelTimeout id, packWord_of_fields hop hid hb⟩
  · simp only [Bool.and_eq_true, beq_iff_eq] at hu
    obtain ⟨ha, hb⟩ := hu
    obtain hop | hop | hop | hop | hop | hop : (opField w).toNat = 0 ∨ (opField w).toNat = 5 ∨
        (opField w).toNat = 6 ∨ (opField w).toNat = 8 ∨ (opField w).toNat = 9 ∨
        (opField w).toNat = 10 := by omega
    · exact ⟨.start, packWord_of_fields hop ha hb⟩
    · exact ⟨.update, packWord_of_fields hop ha hb⟩
    · exact ⟨.getGlobalTick, packWord_of_fields hop ha hb⟩
    · exact ⟨.onTimerUpdate, packWord_of_fields hop ha hb⟩
    · exact ⟨.cbReturn, packWord_of_fields hop ha hb⟩
    · exact ⟨.tick, packWord_of_fields hop ha hb⟩

/-- The kind column of the opcode map, read from the opcode. -/
theorem sourceOfOpcode_encode (i : Instr) : sourceOfOpcode (opField (encode i)) = i.source := by
  cases i <;> simp [encode, sourceOfOpcode, Instr.source]

/-- The stimulus of an operation passes the three checks. -/
theorem wellFormed_stimulusOf (i : Instr) : (stimulusOf i).wellFormed = true := by
  cases i with
  | start => exact Laws.EncodesWellFormed.start
  | registerTask p cb => exact Laws.EncodesWellFormed.registerTask p cb
  | setTimeout p cb => exact Laws.EncodesWellFormed.setTimeout p cb
  | unregisterTask id => exact Laws.EncodesWellFormed.unregisterTask id
  | cancelTimeout id => exact Laws.EncodesWellFormed.cancelTimeout id
  | update => exact Laws.EncodesWellFormed.update
  | getGlobalTick => exact Laws.EncodesWellFormed.getGlobalTick
  | onTimerUpdate => exact Laws.EncodesWellFormed.onTimerUpdate
  | cbReturn => exact Laws.EncodesWellFormed.cbReturn
  | tick => exact Laws.EncodesWellFormed.tick

/-- The well-formed stimuli are exactly those of the operations. -/
theorem wellFormed_iff (x : Stimulus) : x.wellFormed = true ↔ ∃ i, stimulusOf i = x := by
  constructor
  · obtain ⟨side, w⟩ := x
    simp only [Stimulus.wellFormed, Bool.and_eq_true, beq_iff_eq]
    rintro ⟨⟨ho, hu⟩, hs⟩
    obtain ⟨i, rfl⟩ := exists_encode_of_fields ho hu
    exact ⟨i, by rw [hs, sourceOfOpcode_encode]; rfl⟩
  · rintro ⟨i, rfl⟩
    exact wellFormed_stimulusOf i

namespace Machine

/-- What is read from a stimulus as an operation to perform is the operation it stands for. -/
theorem readStimulus_eq_perform_iff {x : Stimulus} {i : Instr} :
    readStimulus x = .perform i ↔ stimulusOf i = x := by
  constructor
  · intro h
    obtain ⟨hdecode, hsource⟩ := readStimulus_perform h
    rw [stimulusOf, encode_of_decode hdecode, hsource]
  · rintro rfl
    exact readStimulus_of_decode (decode_encode i) rfl

/-- A stimulus is performed exactly when it passes the three checks. -/
theorem wellFormed_iff_perform (x : Stimulus) :
    x.wellFormed = true ↔ ∃ i, readStimulus x = .perform i := by
  simp only [wellFormed_iff, readStimulus_eq_perform_iff]

/-- How a stimulus that is not performed is read (R108). -/
def rejection : Source → Reading
  | .commandPort => .illegalCommand
  | .environment => .malformedEvent

theorem readStimulus_cases (x : Stimulus) :
    (∃ i, readStimulus x = .perform i) ∨ readStimulus x = rejection x.source := by
  unfold readStimulus
  split
  case h_1 i hx _ =>
    rw [hx]
    split <;> simp [rejection]
  case h_2 hx _ => exact .inr (by rw [hx]; rfl)
  case h_3 i hx _ =>
    rw [hx]
    split <;> simp [rejection]
  case h_4 hx _ => exact .inr (by rw [hx]; rfl)

theorem readStimulus_of_not_wellFormed {x : Stimulus} (h : x.wellFormed = false) :
    readStimulus x = rejection x.source := by
  refine (readStimulus_cases x).resolve_left fun hp => ?_
  rw [(wellFormed_iff_perform x).2 hp] at h
  cases h

/-- Settles O6. -/
theorem wellFormedStimuliArePerformed : Obligations.WellFormedStimuliArePerformed := by
  intro x
  refine ⟨wellFormed_iff_perform x, fun i hi => ?_, fun h => ?_⟩
  · obtain rfl := readStimulus_eq_perform_iff.1 hi
    exact ⟨rfl, rfl⟩
  · rw [readStimulus_of_not_wellFormed h]
    cases x.source <;> rfl

end Machine

end Sys2Proof

/-! What a step does with the stimulus it takes: a word that is no operation of its side is answered
or refused (30_encoding.md R108), the word the host presents is performed at once (log 3), and the
command gate and the enabling conditions (R110) decide whether an operation is performed. Then what
each operation emits (R104 to R106): one relation with a constructor per kind of emission. -/

namespace Sys2Proof.Machine

/-! ### Words that are no operation of their side -/

/-- A step that takes a stimulus that is not well formed (30_encoding.md R108). -/
theorem step_of_not_wellFormed {s : State} {x : Stimulus} {rest : List Stimulus}
    (hs : s.stimuli = x :: rest) (hx : x.wellFormed = false) :
    step s = match x.source with
      | .commandPort => .next (answerIllegal { s with stimuli := rest })
      | .environment => .refused .malformedEvent := by
  have hr := readStimulus_of_not_wellFormed hx
  cases hsource : x.source <;>
    simp [step, hs, hr, hsource, rejection, State.tail]

theorem not_wellFormed_of_opcode {x : Stimulus}
    (h : (opField x.word).toNat = 7 ∨ 11 ≤ (opField x.word).toNat) : x.wellFormed = false := by
  have hop : opcodeAssigned (opField x.word) = false := by
    simp only [opcodeAssigned, Bool.or_eq_false_iff, Bool.and_eq_false_iff, decide_eq_false_iff_not]
    omega
  simp [Stimulus.wellFormed, hop]

theorem not_wellFormed_of_source {x : Stimulus} (hx : x.source = .commandPort)
    (h : 8 ≤ (opField x.word).toNat) : x.wellFormed = false := by
  have hside : sourceOfOpcode (opField x.word) = .environment := if_neg (by omega)
  simp [Stimulus.wellFormed, hx, hside]

theorem not_wellFormed_of_fields {x : Stimulus}
    (hop : (opField x.word).toNat ∈ [0, 5, 6, 8, 9, 10])
    (hf : aField x.word ≠ 0#32 ∨ bField x.word ≠ 0#32) : x.wellFormed = false := by
  have hu : unusedFieldsZero x.word = false := by
    simp only [List.mem_cons, List.not_mem_nil, or_false] at hop
    rw [unusedFieldsZero, if_neg (by omega), if_neg (by omega), Bool.and_eq_false_iff]
    simpa using hf
  simp [Stimulus.wellFormed, hu]

theorem not_wellFormed_of_handleField {x : Stimulus} (hop : (opField x.word).toNat ∈ [3, 4])
    (hf : 2 ^ 16 ≤ (aField x.word).toNat ∨ bField x.word ≠ 0#32) : x.wellFormed = false := by
  have hu : unusedFieldsZero x.word = false := by
    simp only [List.mem_cons, List.not_mem_nil, or_false] at hop
    rw [unusedFieldsZero, if_neg (by omega), if_pos hop, Bool.and_eq_false_iff]
    simpa using hf
  simp [Stimulus.wellFormed, hu]

/-- Settles O9: each of the listed words fails one of the three checks. -/
theorem illegalAndMalformedWords : Obligations.IllegalAndMalformedWords := by
  intro s w rest
  constructor
  · intro hs h
    refine step_of_not_wellFormed hs ?_
    rcases h with h | h | ⟨hop, hf⟩ | ⟨hop, hf⟩
    · exact not_wellFormed_of_opcode (.inl h)
    · exact not_wellFormed_of_source rfl h
    · exact not_wellFormed_of_fields (List.mem_append_left [8, 9, 10] hop) hf
    · exact not_wellFormed_of_handleField hop hf
  · intro hs h
    refine step_of_not_wellFormed hs ?_
    rcases h with h | h | ⟨hop, hf⟩
    · exact not_wellFormed_of_opcode (.inl h)
    · exact not_wellFormed_of_opcode (.inr h)
    · exact not_wellFormed_of_fields (List.mem_append_right [0, 5, 6] hop) hf

/-! ### Words of an operation -/

/-- The host presents the word of an operation on its own side. -/
theorem sideOfWord_encode (i : Instr) : sideOfWord (encode i) = i.source := by
  cases i <;> simp [encode, sideOfWord, Instr.source]

/-- The host's 72-bit number of an encoded stimulus stands for it (log 17). -/
theorem tableStimulus_encode (i : Instr) :
    tableStimulus 72 (encode i).toNat = some (stimulusOf i) := by
  have hlt := (encode i).isLt
  have hmod : (encode i).toNat % 2 ^ 72 = (encode i).toNat := Nat.mod_eq_of_lt (by omega)
  simp only [tableStimulus, tableWord, hmod, if_pos hlt, BitVec.ofNat_toNat, BitVec.setWidth_eq,
    sideOfWord_encode, stimulusOf]

/-- The stimulus of an operation, presented ahead of those that wait, is performed on the state as
it was. -/
theorem present_eq_exec (i : Instr) (s : State) : present i s = exec i s :=
  step_of_readStimulus_perform rfl (readStimulus_eq_perform_iff.2 rfl)

/-- Settles O8. -/
theorem presentedWordIsPerformed : Obligations.PresentedWordIsPerformed := by
  intro s i
  rw [State.withFetchWord, tableStimulus_encode]
  exact present_eq_exec i s

/-! ### The command gate -/

/-- The class the gate knows a host command by (30_encoding.md R110). -/
def commandClass : Instr → CommandClass
  | .start => .start
  | .update => .update
  | _ => .callable

/-- What a host command does once the gate has accepted it. The three events have no body here. -/
def commandBody : Instr → State → Except Fault State
  | .start => startBody
  | .registerTask p cb => registrationBody p cb true
  | .setTimeout p cb => registrationBody p cb false
  | .unregisterTask id => fun s => removalBody (unregisterChecks id s) (handleSlot id) s
  | .cancelTimeout id => fun s => removalBody (cancelChecks id s) (handleSlot id) s
  | .update => drainStep
  | .getGlobalTick => fun s => .ok (s.respond .ok s.g)
  | .onTimerUpdate | .cbReturn | .tick => .ok

/-- Every host command is its body behind the gate. -/
theorem exec_eq_hostCommand {i : Instr} (hi : i.source = .commandPort) (s : State) :
    exec i s = hostCommand (commandClass i) (commandBody i) s := by
  cases i with
  | onTimerUpdate | cbReturn | tick => cases hi
  | _ => rfl

/-- The gate accepts what the table does not refuse. -/
theorem gateAccepts_iff {i : Instr} (s : State) :
    s.gateAccepts (commandClass i) = true ↔ ¬ gateRefuses s i := by
  cases i with
  | start => simp [commandClass, gateRefuses, gateAccepts_start]
  | update =>
    simp only [commandClass, gateRefuses, gateAccepts_update]
    grind
  | _ => simp [commandClass, gateRefuses, gateAccepts_callable]

theorem tickEnabled_iff (s : State) :
    s.tickEnabled = true ↔ s.started = true ∧ s.faulted = false ∧ s.cen = true := by
  simp [State.tickEnabled, and_assoc]

/-- The interrupt line is high exactly when an enabled update event is pending (R107). -/
theorem irqLine_iff (s : State) : s.irqLine = true ↔ s.uif = true ∧ s.uie = true := by
  simp [State.irqLine]

/-- An environment event that is not enabled is refused by the model (30_encoding.md R110). -/
theorem environmentEvent_refused {b : Bool} {r : Refusal} {body : State → Except Fault State}
    {s : State} (h : b = false) : environmentEvent b r body s = .refused r := by
  simp [environmentEvent, h]

/-! ### What leaves the block -/

/-- The latched slot's callback is dispatched (30_encoding.md R106). -/
def Dispatches (s t : State) : Prop :=
  t.updActive = true ∧
    t.outputs = s.outputs ++ [.dispatch (t.record t.updSlot).callback t.updSlot]

/-- What an operation that ends in a next state emits (30_encoding.md R104 to R106). -/
inductive Emission (s : State) : Instr → State → Prop
  /-- The timer's events emit nothing. -/
  | silent {i : Instr} {t : State} (hi : i = .tick ∨ i = .onTimerUpdate)
      (ho : t.outputs = s.outputs) : Emission s i t
  /-- A command that is performed is answered OK. -/
  | ok {i : Instr} {t : State} {v : BitVec 64} (hi : i.source = .commandPort)
      (ho : t.outputs = s.outputs ++ [.response ⟨.ok, v⟩]) : Emission s i t
  /-- A command the gate does not accept is answered REFUSED. -/
  | refused {i : Instr} (hi : i.source = .commandPort) (hg : gateRefuses s i) :
      Emission s i (answerRefused s)
  /-- A START on an invalid clock is answered FAULT. -/
  | configFault : Emission s .start (raiseConfigFault s)
  /-- A returned callback was the last one, and the UPDATE is answered OK. -/
  | drained {t : State} (ha : t.updActive = false)
      (ho : t.outputs = s.outputs ++ [.response ⟨.ok, 0#64⟩]) : Emission s .cbReturn t
  /-- The drain goes on with a callback. -/
  | dispatched {i : Instr} {t : State} (hi : i = .update ∨ i = .cbReturn)
      (hd : Dispatches s t) : Emission s i t

theorem reprogrammed_outputs {s t : State} (h : scheduleNextInterval s = .ok t) :
    t.outputs = s.outputs := by
  obtain ⟨-, e⟩ := scheduleNextInterval_cases h
  rw [e]

theorem outputs_of_registerCommon {p : Micros} {cb : Token} {rep : Bool} {id : Handle}
    {s t : State} (h : registerCommon p cb rep s = .ok (id, t)) : t.outputs = s.outputs := by
  rcases registerCommon_cases h with ⟨-, -, rfl⟩ | ⟨j, s2, -, -, hi, hu, -⟩
  · rfl
  · rw [reprogrammed_outputs hu, insertSorted_eq hi]
    rfl

theorem outputs_of_registrationBody {p : Micros} {cb : Token} {rep : Bool} {s t : State}
    (h : registrationBody p cb rep s = .ok t) :
    ∃ v, t.outputs = s.outputs ++ [.response ⟨.ok, v⟩] := by
  obtain ⟨id, u, hr, rfl⟩ := registrationBody_cases h
  exact ⟨id.setWidth 64, by rw [State.respond_outputs, outputs_of_registerCommon hr]⟩

theorem outputs_of_removalBody {b : Bool} {i : Slot} {s t : State}
    (h : removalBody b i s = .ok t) : ∃ v, t.outputs = s.outputs ++ [.response ⟨.ok, v⟩] := by
  rcases removalBody_cases h with ⟨-, rfl⟩ | ⟨u, -, hu, rfl⟩
  · exact ⟨0#64, rfl⟩
  · exact ⟨1#64, by
      rw [State.respond_outputs, reprogrammed_outputs hu, removeSorted_eq, releaseSlot_outputs]⟩

/-- A drain step answers the UPDATE or dispatches the slot it latches. -/
theorem outputs_of_drainStep {s t : State} (h : drainStep s = .ok t) :
    (t.updActive = false ∧ t.outputs = s.outputs ++ [.response ⟨.ok, 0#64⟩]) ∨
      Dispatches s t := by
  rcases drainStep_cases h with ⟨-, rfl⟩ | ⟨i, -, rfl⟩
  · exact .inl ⟨rfl, rfl⟩
  · exact .inr ⟨rfl, rfl⟩

theorem emission_of_commandBody {i : Instr} {s t : State} (hi : i.source = .commandPort)
    (h : commandBody i s = .ok t) : Emission s i t := by
  cases i with
  | start =>
    rcases startBody_cases h with ⟨-, rfl⟩ | ⟨v, u, -, hu, rfl⟩
    · exact .configFault
    · exact .ok hi (by rw [State.respond_outputs, reprogrammed_outputs hu])
  | registerTask p cb | setTimeout p cb =>
    obtain ⟨v, ho⟩ := outputs_of_registrationBody h
    exact .ok hi ho
  | unregisterTask id | cancelTimeout id =>
    obtain ⟨v, ho⟩ := outputs_of_removalBody h
    exact .ok hi ho
  | update =>
    rcases outputs_of_drainStep h with ⟨-, ho⟩ | hd
    · exact .ok hi ho
    · exact .dispatched (.inl rfl) hd
  | getGlobalTick =>
    cases h
    exact .ok hi rfl
  | onTimerUpdate | cbReturn | tick => cases hi

/-- Every operation that ends in a next state emits in one of the listed ways. -/
theorem emission_of_exec {i : Instr} {s t : State} (h : exec i s = .next t) :
    Emission s i t := by
  by_cases hi : i.source = .commandPort
  · rw [exec_eq_hostCommand hi] at h
    rcases hostCommand_next h with ⟨-, hb⟩ | ⟨hg, rfl⟩
    · exact emission_of_commandBody hi hb
    · exact .refused hi (by
        by_contra hr
        rw [(gateAccepts_iff s).2 hr] at hg
        cases hg)
  · have he := effect_of_exec h
    have e := he.eq_writable
    cases i with
    | tick => exact .silent (.inl rfl) (by rw [e]; rfl)
    | onTimerUpdate => exact .silent (.inr rfl) (by rw [e]; rfl)
    | cbReturn =>
      obtain ⟨-, hb⟩ := environmentEvent_next h
      have hf : (finishCallback s).outputs = s.outputs := by rw [finishCallback_eq]
      rcases outputs_of_drainStep hb with ⟨ha, ho⟩ | ⟨ha, ho⟩
      · exact .drained ha (hf ▸ ho)
      · exact .dispatched (.inr rfl) ⟨ha, hf ▸ ho⟩
    | _ => exact absurd rfl hi

namespace Emission

variable {s t : State} {i : Instr}

/-- The timer's events are silent. -/
theorem of_timerEvent (he : Emission s i t) (hi : i = .tick ∨ i = .onTimerUpdate) :
    t.outputs = s.outputs := by
  cases he with
  | silent _ ho => exact ho
  | ok hc | refused hc => rcases hi with rfl | rfl <;> cases hc
  | configFault | drained => simp at hi
  | dispatched hd => rcases hi with rfl | rfl <;> simp at hd

/-- A command other than UPDATE is answered. -/
theorem of_command (he : Emission s i t) (hi : i.source = .commandPort) (hu : i ≠ .update) :
    ∃ r, t.outputs = s.outputs ++ [.response r] := by
  cases he with
  | ok _ ho => exact ⟨_, ho⟩
  | refused | configFault => exact ⟨_, rfl⟩
  | silent ht => rcases ht with rfl | rfl <;> cases hi
  | drained => cases hi
  | dispatched hd =>
    rcases hd with rfl | rfl
    · exact absurd rfl hu
    · cases hi

/-- UPDATE is answered or dispatches. -/
theorem of_update (he : Emission s .update t) :
    (∃ r, t.outputs = s.outputs ++ [.response r]) ∨ Dispatches s t := by
  cases he with
  | ok _ ho => exact .inl ⟨_, ho⟩
  | refused => exact .inl ⟨_, rfl⟩
  | dispatched _ hd => exact .inr hd
  | silent ht => simp at ht

/-- CB_RETURN ends the drain or dispatches. -/
theorem of_cbReturn (he : Emission s .cbReturn t) :
    (t.updActive = false ∧ t.outputs = s.outputs ++ [.response ⟨.ok, 0#64⟩]) ∨
      Dispatches s t := by
  cases he with
  | drained ha ho => exact .inl ⟨ha, ho⟩
  | dispatched _ hd => exact .inr hd
  | ok hc | refused hc => cases hc
  | silent ht => simp at ht

/-- An answer that is not OK is REFUSED, to a command the table refuses, or FAULT, to a START. -/
theorem of_not_ok (he : Emission s i t) {r : Response}
    (ho : t.outputs = s.outputs ++ [.response r]) (hr : r.status ≠ .ok) :
    (r = ⟨.refused, 0#64⟩ ∧ gateRefuses s i ∧ t = answerRefused s) ∨
      (r = ⟨.fault, 0#64⟩ ∧ t = raiseConfigFault s) := by
  cases he with
  | refused _ hg =>
    refine .inl ⟨?_, hg, rfl⟩
    simpa using ho.symm
  | configFault =>
    refine .inr ⟨?_, rfl⟩
    simpa using ho.symm
  | silent _ hs => simp [hs] at ho
  | ok _ hv | drained _ hv =>
    rw [hv] at ho
    obtain rfl : _ = r := by simpa using ho
    exact absurd rfl hr
  | dispatched _ hd => simp [hd.2] at ho

end Emission

/-! ### The statements -/

/-- Settles O10: the gate's test is the table, REFUSED is emitted for what the table refuses only,
and an event's condition is its test. -/
theorem gateAndEnabling : Obligations.GateAndEnabling := by
  refine ⟨fun s i hi hr => ?_, fun s t i _ hr h ho => ?_, fun s hs => ?_, fun s hs => ?_,
    fun s hs => ?_⟩
  · rw [exec_eq_hostCommand hi]
    exact hostCommand_refused (Bool.eq_false_iff.2 fun hg => (gateAccepts_iff s).1 hg hr)
  · rcases (emission_of_exec h).of_not_ok ho (by decide) with ⟨-, hg, -⟩ | ⟨hf, -⟩
    · exact hr hg
    · cases hf
  · exact environmentEvent_refused (Bool.eq_false_iff.2 (mt (tickEnabled_iff s).1 hs))
  · exact environmentEvent_refused (Bool.eq_false_iff.2 (mt (irqLine_iff s).1 hs))
  · exact environmentEvent_refused hs

/-- Settles O30: what an operation emits is one of the listed ways, read operation by operation. -/
theorem outputsOfEachOperation : Obligations.OutputsOfEachOperation := by
  intro s t i h
  have he := emission_of_exec h
  refine ⟨he.of_timerEvent, he.of_command, ?_, ?_, fun r ho hr => ?_⟩
  · rintro rfl
    exact he.of_update
  · rintro rfl
    exact he.of_cbReturn
  · rcases he.of_not_ok ho hr with ⟨rfl, -, rfl⟩ | ⟨rfl, rfl⟩
    · exact ⟨rfl, rfl, fun hf => absurd rfl hf⟩
    · exact ⟨rfl, rfl, fun _ => rfl⟩

end Sys2Proof.Machine

/-! Real time (42_timer_driver.md R168): a TICK advances `G + CNT` by 1, an update event pending
counted as one more `cur`, and neither the interrupt operation nor the reload controller loses any
of it; so RUN n, which serves every interrupt at once (30_encoding.md R112), advances it by n. -/

namespace Sys2Proof.Machine

/-! ### The reload controller and the interrupt -/

/-- The reload controller moves counted ticks from `CNT` to `G` at most: `G + CNT` stays. -/
theorem reprogrammed_time {s t : State} (h : scheduleNextInterval s = .ok t) :
    t.g + t.cnt.setWidth 64 = s.g + s.cnt.setWidth 64 := by
  obtain ⟨hp, -⟩ := scheduleNextInterval_cases h
  unfold TimerReprogrammed at hp
  split at hp
  · obtain ⟨-, -, -, hcnt, hg⟩ := hp
    rw [hcnt, hg]
  · obtain ⟨-, -, -, ⟨-, hcnt, hg⟩ | ⟨-, hcnt, hg⟩⟩ := hp
    · rw [hcnt, hg]
    · rw [hcnt, hg, BitVec.setWidth_zero, BitVec.add_zero]

theorem realTime_of_low {s : State} (h : s.uif = false) :
    s.realTime = s.g + s.cnt.setWidth 64 := by
  simp [State.realTime, h]

theorem realTime_of_pending {s : State} (h : s.uif = true) :
    s.realTime = s.g + s.cnt.setWidth 64 + s.cur.setWidth 64 := by
  simp [State.realTime, h]

/-- The interrupt operation serves the pending event and loses no time. -/
theorem exec_onTimerUpdate_time {s t : State} (h : exec .onTimerUpdate s = .next t) :
    t.uif = false ∧ t.realTime = s.realTime := by
  obtain ⟨hline, hb⟩ := environmentEvent_next h
  obtain ⟨huif, -⟩ := (irqLine_iff s).1 hline
  obtain ⟨u, hl, ht⟩ := onTimerUpdate_cases hb
  have hu := fireLoop_eq hl
  have hlow : t.uif = false := by
    obtain ⟨-, e⟩ := scheduleNextInterval_cases ht
    rw [e, hu]
    rfl
  refine ⟨hlow, ?_⟩
  calc t.realTime
      = u.g + u.cnt.setWidth 64 := by rw [realTime_of_low hlow, reprogrammed_time ht]
    _ = s.g + s.cur.setWidth 64 + s.cnt.setWidth 64 := by rw [hu]; rfl
    _ = s.realTime := by rw [realTime_of_pending huif]; ac_rfl

/-! ### TICK -/

/-- One count of a 32-bit value that does not wrap is one count of its 64-bit extension. -/
theorem setWidth_add_one {c : Micros} (h : c + 1#32 ≠ 0#32) :
    (c + 1#32).setWidth 64 = c.setWidth 64 + 1#64 := by
  bv_omega

/-- With no update event pending a TICK advances real time by 1. -/
theorem exec_tick_time {s t : State} (hi : s.CoreInv) (huif : s.uif = false)
    (h : exec .tick s = .next t) : t.realTime = s.realTime + 1#64 := by
  obtain ⟨henabled, hb⟩ := environmentEvent_next h
  obtain ⟨hs, -, hc⟩ := (tickEnabled_iff s).1 henabled
  rw [realTime_of_low huif, BitVec.add_assoc]
  rcases countTick_cases hb with ⟨hk, rfl⟩ | ⟨hk, rfl⟩
  · have hcur : s.cur ≠ 0#32 := fun h0 => (hi.armedCount hs).1 hc ((hi.idleCur hs).1 h0)
    have hend : s.cnt + 1#32 = s.cur := by rw [hk, (hi.reload hc).1, BitVec.sub_add_cancel]
    rw [realTime_of_pending rfl, BitVec.setWidth_zero, BitVec.add_zero,
      ← setWidth_add_one (hend ▸ hcur), hend]
  · rw [← setWidth_add_one (by bv_omega)]
    exact realTime_of_low huif

/-! ### RUN n -/

/-- What RUN keeps between its TICKs: a started block with its invariants and no interrupt
waiting. -/
structure State.Served (s : State) : Prop where
  inv : s.CoreInv
  started : s.started = true
  low : s.uif = false

theorem served_iff {s : State} : s.Served ↔ s.CoreInv ∧ s.started = true ∧ s.irqLine = false := by
  constructor
  · rintro ⟨hi, hs, hl⟩
    exact ⟨hi, hs, by simp [State.irqLine, hl]⟩
  · rintro ⟨hi, hs, hl⟩
    refine ⟨hi, hs, ?_⟩
    simpa [State.irqLine, hi.interruptOn hs] using hl

/-- Only START changes `started`. -/
theorem started_of_exec {i : Instr} (hi : i ≠ .start) {s t : State} (h : exec i s = .next t) :
    t.started = s.started := by
  rw [(effect_of_exec h).eq_writable]
  cases i <;> simp [writable] at hi ⊢

theorem andThen_eq_next {o : Host.Outcome State Fault Refusal}
    {f : State → Host.Outcome State Fault Refusal} {t : State} :
    andThen o f = .next t ↔ ∃ u, o = .next u ∧ f u = .next t := by
  cases o <;> simp [andThen]

/-- The interrupt taken if its line is high: after it no interrupt waits, and no time is lost. -/
theorem serviceInterrupt_spec {s t : State} (hi : s.CoreInv) (hs : s.started = true)
    (h : serviceInterrupt s = .next t) : t.Served ∧ t.realTime = s.realTime := by
  unfold serviceInterrupt at h
  split at h
  · rw [present_eq_exec] at h
    obtain ⟨hlow, htime⟩ := exec_onTimerUpdate_time h
    exact ⟨⟨(effect_of_exec h).keeps_coreInv hi, (started_of_exec (by simp) h).trans hs, hlow⟩,
      htime⟩
  · rename_i hline
    cases h
    exact ⟨served_iff.2 ⟨hi, hs, Bool.eq_false_iff.2 hline⟩, rfl⟩

/-- One round of RUN: a TICK, and the interrupt it may have raised. -/
theorem runRound_spec {s t : State} (hsv : s.Served)
    (h : andThen (present .tick s) serviceInterrupt = .next t) :
    t.Served ∧ t.realTime = s.realTime + 1#64 := by
  obtain ⟨u, hu, ht⟩ := andThen_eq_next.1 h
  rw [present_eq_exec] at hu
  obtain ⟨hserved, htime⟩ := serviceInterrupt_spec ((effect_of_exec hu).keeps_coreInv hsv.inv)
    ((started_of_exec (by simp) hu).trans hsv.started) ht
  exact ⟨hserved, htime.trans (exec_tick_time hsv.inv hsv.low hu)⟩

/-- RUN n, by induction on its rounds. -/
theorem runPrompt_spec (n : Nat) {s t : State} (hsv : s.Served) (h : runPrompt n s = .next t) :
    t.Served ∧ t.realTime = s.realTime + BitVec.ofNat 64 n := by
  induction n generalizing s with
  | zero =>
    cases h
    exact ⟨hsv, (BitVec.add_zero _).symm⟩
  | succ n ih =>
    obtain ⟨u, hu, ht⟩ := andThen_eq_next.1 h
    obtain ⟨husv, hutime⟩ := runRound_spec hsv hu
    obtain ⟨htsv, httime⟩ := ih husv ht
    refine ⟨htsv, ?_⟩
    rw [httime, hutime, BitVec.add_assoc, Nat.add_comm, BitVec.ofNat_add]

/-- Settles O26. -/
theorem runServesEveryInterrupt : Obligations.RunServesEveryInterrupt := by
  intro n s t hi hs hl h
  obtain ⟨hserved, htime⟩ := runPrompt_spec n (served_iff.2 ⟨hi, hs, hl⟩) h
  obtain ⟨hti, -, htl⟩ := served_iff.1 hserved
  exact ⟨hti, htl, htime⟩

end Sys2Proof.Machine

/-! The laws of the sorted index (41_sorted_index.md R141, R142, R147): removing what an insertion
put in restores the state, and an insertion stands after every deadline that is not later. -/

namespace Sys2Proof.Machine

/-! ### Round trip -/

/-- Closing up the position of an insertion gives back the index, if its last position is unused. -/
theorem removeNibble_insertNibble {v : Packed} {p : Nat} (i : Slot) (hp : p < 16)
    (hlast : nib v 15 = 0#4) : removeNibble (insertNibble v p i) p = v := by
  refine packed_ext fun q hq => ?_
  rw [nib_removeNibble _ _ _ hp]
  split
  · rename_i hlt
    rw [nib_insertNibble _ _ _ _ hp hq, if_pos hlt]
  · by_cases h15 : q = 15
    · rw [h15, hlast, nib_of_ge _ _ (by omega)]
    · rw [nib_insertNibble _ _ _ _ hp (by omega), if_neg (by omega), if_neg (by omega),
        Nat.add_sub_cancel]

/-- An absent slot is found where it has been inserted. -/
theorem findPosition_insertNibble {v : Packed} {n p : Nat} {i : Slot} (hn : n < 16) (hp : p ≤ n)
    (habsent : ∀ q < n, nib v q ≠ i) :
    findPosition (insertNibble v p i) (n + 1) i = some p := by
  refine (findPosition_eq_some_iff _ _ _ _).2 ⟨?_, by omega, fun q hq => ?_⟩
  · rw [nib_insertNibble _ _ _ _ (by omega) (by omega), if_neg (lt_irrefl p), if_pos rfl]
  · rw [nib_insertNibble _ _ _ _ (by omega) (by omega), if_pos hq]
    exact habsent q (by omega)

/-- Settles O32. -/
theorem insertThenRemoveRestores : Obligations.InsertThenRemoveRestores := by
  intro s i h hc habs
  refine ⟨_, insertSorted_of_lt i hc, ?_⟩
  have hp := searchPosition_le s (s.record i).nextFireUs
  have habsent : ∀ q < s.count.toNat, nib s.sorted q ≠ i := fun q hq e => by
    rw [← e, isScheduled_nib s hq] at habs
    cases habs
  have hfind := findPosition_insertNibble hc hp habsent
  rw [← count_add_one s.count hc] at hfind
  have hlast := h.unusedZero 15 (by omega) (by omega)
  have hback := removeNibble_insertNibble i (Nat.lt_of_le_of_lt hp hc) hlast
  simp only [removeSorted, hfind, hback, BitVec.add_sub_cancel]

/-! ### Order -/

/-- The search passes every deadline that is not later (41_sorted_index.md R142). -/
theorem sdiff_le_of_lt_searchPosition {s : State} (h : s.Ordered) {new : Micros}
    (hw : s.Within new) {q : Nat} (hq : q < searchPosition s new) :
    sdiff (deadlineAt s q) new ≤ 0 := by
  obtain ⟨base, hn, hd⟩ := hw
  have hle := searchPosition_le s new
  have hlast := (searchPosition_boundary s new).1.resolve_left (by omega)
  have hord := h.le (p := q) (q := searchPosition s new - 1) (by omega) (by omega)
  rw [sdiff_of_window (hd _ (by omega)) hn] at hlast ⊢
  rw [sdiff_of_window (hd _ (by omega)) (hd _ (by omega))] at hord
  omega

/-- The search stops before every later deadline. -/
theorem sdiff_pos_of_searchPosition_le {s : State} (h : s.Ordered) {new : Micros}
    (hw : s.Within new) {q : Nat} (hq : searchPosition s new ≤ q) (hlt : q < s.count.toNat) :
    0 < sdiff (deadlineAt s q) new := by
  obtain ⟨base, hn, hd⟩ := hw
  have hfirst := (searchPosition_boundary s new).2.resolve_left (by omega)
  have hord := h.le hq hlt
  rw [sdiff_of_window (hd _ (by omega)) hn] at hfirst ⊢
  rw [sdiff_of_window (hd _ (by omega)) (hd _ hlt)] at hord
  omega

/-- Settles O33: the position is the one the search answers. -/
theorem insertionKeepsDeadlineOrder : Obligations.InsertionKeepsDeadlineOrder := by
  intro s i hc hord hw
  have hi := insertSorted_of_lt i hc
  refine ⟨_, searchPosition s (s.record i).nextFireUs, hi, rfl, searchPosition_le s _,
    fun q hq => sdiff_le_of_lt_searchPosition hord hw hq,
    fun q hq hlt => sdiff_pos_of_searchPosition_le hord hw hq hlt, ?_⟩
  obtain ⟨base, hn, hd⟩ := hw
  exact State.Ordered.insertSorted hord hd hn hi

end Sys2Proof.Machine

/-! The two word-level forms of 41_sorted_index.md beside the normative ones. The detector of R144:
below the lowest zero nibble the subtraction borrows from no other nibble, so up to that position
each flag says of its own nibble whether it is zero. The insertion on 32-bit halves of R141: bit by
bit the insertion on 64. -/

namespace Sys2Proof.Machine

/-! ### Nibbles of a sum -/

theorem toNat_nib (v : Packed) (q : Nat) : (nib v q).toNat = v.toNat / 16 ^ q % 16 := by
  rw [nib, BitVec.extractLsb'_toNat, Nat.shiftRight_eq_div_pow, Nat.pow_mul]

/-- The nibbles below position `q` of the two words add up without a carry into it. -/
def NoCarry (v w : Packed) (q : Nat) : Prop := v.toNat % 16 ^ q + w.toNat % 16 ^ q < 16 ^ q

/-- Without a carry into it a nibble of a sum is the sum of the nibbles. -/
theorem nib_add_of_noCarry {v w : Packed} {q : Nat} (hq : q < 16) (h : NoCarry v w q) :
    nib (v + w) q = nib v q + nib w q := by
  apply BitVec.eq_of_toNat_eq
  have hsplit : 2 ^ 64 = 16 ^ q * 16 ^ (16 - q) := by
    rw [← Nat.pow_add, Nat.add_sub_cancel' hq.le]
    rfl
  have hdvd : 16 ∣ 16 ^ (16 - q) := dvd_pow_self 16 (by omega)
  rw [toNat_nib, BitVec.toNat_add, hsplit, Nat.mod_mul_right_div_self, Nat.mod_mod_of_dvd _ hdvd,
    Nat.add_div_eq_of_add_mod_lt h, BitVec.toNat_add, toNat_nib, toNat_nib, ← Nat.add_mod]

/-- No carry leaves a position whose nibbles do not add up to 16. -/
theorem noCarry_succ {v w : Packed} {q : Nat} (h : NoCarry v w q)
    (hn : (nib v q).toNat + (nib w q).toNat < 16) : NoCarry v w (q + 1) := by
  rw [toNat_nib, toNat_nib] at hn
  unfold NoCarry at h ⊢
  rw [Nat.pow_succ, Nat.mod_mul, Nat.mod_mul]
  have := Nat.mul_le_mul_left (16 ^ q) (Nat.le_of_lt_succ hn)
  rw [Nat.mul_add] at this
  omega

/-! ### The zero-nibble detector -/

theorem nib_ones : ∀ q < 16, nib 0x1111111111111111#64 q = 1#4 := by decide

theorem getLsbD_eights :
    ∀ k < 64, (0x8888888888888888#64).getLsbD k = decide (k % 4 = 3) := by decide

/-- The flag of a nibble from which nothing has been borrowed. -/
theorem flag_of_nibble :
    ∀ n : BitVec 4, ((n - 1#4).getLsbD 3 && !n.getLsbD 3) = decide (n = 0#4) := by decide

/-- While no nibble below it is zero, nothing is borrowed from a nibble. -/
theorem nib_sub_ones {x : Packed} {q : Nat} (hq : q < 16) (hx : ∀ r < q, nib x r ≠ 0#4) :
    NoCarry (x - 0x1111111111111111#64) 0x1111111111111111#64 q ∧
      nib (x - 0x1111111111111111#64) q = nib x q - 1#4 := by
  have hnib : ∀ r < 16, NoCarry (x - 0x1111111111111111#64) 0x1111111111111111#64 r →
      nib (x - 0x1111111111111111#64) r = nib x r - 1#4 := fun r hr hc => by
    have hadd := nib_add_of_noCarry hr hc
    rw [BitVec.sub_add_cancel, nib_ones r hr] at hadd
    rw [hadd, BitVec.add_sub_cancel]
  have hcarry : NoCarry (x - 0x1111111111111111#64) 0x1111111111111111#64 q := by
    induction q with
    | zero => simp [NoCarry, Nat.mod_one]
    | succ r ih =>
      have hc := ih (by omega) fun k hk => hx k (by omega)
      refine noCarry_succ hc ?_
      have h0 := hx r (by omega)
      rw [hnib r (by omega) hc, nib_ones r (by omega)]
      bv_omega
  exact ⟨hcarry, hnib q hq hcarry⟩

/-- While no nibble below it is zero, a flag says whether its nibble is (41_sorted_index.md
R144). -/
theorem zeroNibbleFlags_flag {x : Packed} {q : Nat} (hq : q < 16)
    (hx : ∀ r < q, nib x r ≠ 0#4) :
    (zeroNibbleFlags x).getLsbD (4 * q + 3) = decide (nib x q = 0#4) := by
  have hsub := congrArg (fun n => n.getLsbD 3) (nib_sub_ones hq hx).2
  simp only [getLsbD_nib, show 3 < 4 by omega, decide_true, Bool.true_and] at hsub
  rw [← flag_of_nibble, ← hsub, getLsbD_nib]
  simp [zeroNibbleFlags, getLsbD_eights (4 * q + 3) (by omega), show 4 * q + 3 < 64 by omega,
    show (4 * q + 3) % 4 = 3 by omega, -BitVec.getLsbD_eq_getElem]

/-- Only the top bits of the nibbles are flags. -/
theorem zeroNibbleFlags_of_not_flag {x : Packed} {k : Nat} (hk : k < 64) (h : k % 4 ≠ 3) :
    (zeroNibbleFlags x).getLsbD k = false := by
  rw [zeroNibbleFlags, BitVec.getLsbD_and, getLsbD_eights k hk, decide_eq_false h, Bool.and_false]

/-- While no nibble up to its own is zero, no bit is set. -/
theorem zeroNibbleFlags_below {x : Packed} {k : Nat} (hk : k < 64)
    (hx : ∀ r, 4 * r + 3 ≤ k → nib x r ≠ 0#4) : (zeroNibbleFlags x).getLsbD k = false := by
  by_cases h3 : k % 4 = 3
  · have hflag := zeroNibbleFlags_flag (x := x) (q := k / 4) (by omega) fun r hr => hx r (by omega)
    rwa [show 4 * (k / 4) + 3 = k by omega, decide_eq_false (hx _ (by omega))] at hflag
  · exact zeroNibbleFlags_of_not_flag hk h3

/-- The lowest flag is that of the lowest zero nibble. -/
theorem ctz_zeroNibbleFlags (x : Packed) :
    ctz (zeroNibbleFlags x) = (findPosition x 16 0#4).map fun p => 4 * p + 3 := by
  cases hf : findPosition x 16 0#4 with
  | none =>
    have hx := (findPosition_eq_none_iff _ _ _).1 hf
    refine (ctz_eq_none_iff _).2 (BitVec.eq_of_getLsbD_eq fun k hk => ?_)
    rw [zeroNibbleFlags_below hk fun r hr => hx r (by omega), BitVec.getLsbD_zero]
  | some p =>
    obtain ⟨hp, hlt, hx⟩ := (findPosition_eq_some_iff _ _ _ _).1 hf
    rw [Option.map_some]
    refine (ctz_eq_some_iff _ _).2 ⟨?_, by omega, fun k hk => ?_⟩
    · rw [zeroNibbleFlags_flag hlt hx, decide_eq_true hp]
    · exact zeroNibbleFlags_below (by omega) fun r hr => hx r (by omega)

theorem nib_rep16 : ∀ q < 16, ∀ i : Slot, nib (rep16 i) q = i := by decide

/-- Looking for a slot is looking for a zero nibble in the difference from its repetition. -/
theorem findPosition_xor_rep16 (v : Packed) (i : Slot) :
    findPosition (v ^^^ rep16 i) 16 0#4 = findPosition v 16 i := by
  have hnib : ∀ q < 16, nib (v ^^^ rep16 i) q = 0#4 ↔ nib v q = i := fun q hq => by
    rw [nib, BitVec.extractLsb'_xor, ← nib, ← nib, nib_rep16 q hq, BitVec.xor_eq_zero_iff]
  ext p
  simp only [findPosition_eq_some_iff]
  constructor
  · rintro ⟨hp, hlt, hbelow⟩
    exact ⟨(hnib p hlt).1 hp, hlt, fun q hq => mt (hnib q (by omega)).2 (hbelow q hq)⟩
  · rintro ⟨hp, hlt, hbelow⟩
    exact ⟨(hnib p hlt).2 hp, hlt, fun q hq => mt (hnib q (by omega)).1 (hbelow q hq)⟩

/-- The search below `count` is the search of all positions and the test against `count`. -/
theorem findPosition_of_le (v : Packed) {n m : Nat} (i : Slot) (h : n ≤ m) :
    findPosition v n i = (findPosition v m i).filter (· < n) := by
  ext p
  simp only [Option.filter_eq_some_iff, findPosition_eq_some_iff, decide_eq_true_iff]
  constructor
  · rintro ⟨hp, hlt, hbelow⟩
    exact ⟨⟨hp, by omega, hbelow⟩, hlt⟩
  · rintro ⟨⟨hp, -, hbelow⟩, hlt⟩
    exact ⟨hp, hlt, hbelow⟩

/-- Settles O34. -/
theorem detectorFindsTheSearchedPosition : Obligations.DetectorFindsTheSearchedPosition := by
  intro v count i hc
  have hctz : ctz (zeroNibbleFlags (v ^^^ rep16 i)) =
      (findPosition v 16 i).map fun p => 4 * p + 3 := by
    rw [ctz_zeroNibbleFlags, findPosition_xor_rep16]
  rw [findPosition_of_le v i hc, detectPosition, hctz]
  cases findPosition v 16 i with
  | none => rfl
  | some p =>
    have hdiv : (4 * p + 3) / 4 = p := by omega
    by_cases hlt : p < count <;> simp [hdiv, hlt, Option.filter]

/-! ### The insertion on halves -/

/-- The masks of `insert32` and of the 64-bit insertion agree on the low half. -/
theorem setWidth_lowmask (q : Nat) : (lowmask q).setWidth 32 = (1#32 <<< (4 * q)) - 1#32 := by
  apply BitVec.eq_of_toNat_eq
  simp [lowmask, BitVec.toNat_sub]
  omega

/-- `insert32` is the low half of the insertion into a word whose high half is zero. -/
theorem insertHalf_eq (w : BitVec 32) (q : Nat) (i : Slot) :
    insertHalf w q i = (insertNibble (w.setWidth 64) q i).setWidth 32 := by
  simp [insertHalf, insertNibble, setWidth_lowmask]

/-- The bits after an insertion on a half: below as before, the slot at the position, above four
up. -/
theorem getLsbD_insertHalf (w : BitVec 32) {q k : Nat} (i : Slot) (hq : q < 8) (hk : k < 32) :
    (insertHalf w q i).getLsbD k =
      if k < 4 * q then w.getLsbD k
      else if k < 4 * q + 4 then i.getLsbD (k - 4 * q)
      else w.getLsbD (k - 4) := by
  rw [insertHalf_eq, BitVec.getLsbD_setWidth, getLsbD_insertNibble _ _ _ _ (by omega) (by omega)]
  simp only [BitVec.getLsbD_setWidth, hk, decide_true, Bool.true_and, show k < 64 by omega,
    show k - 4 < 64 by omega]

theorem getLsbD_lowHalf (v : Packed) {k : Nat} (hk : k < 32) :
    (lowHalf v).getLsbD k = v.getLsbD k := by
  rw [lowHalf, BitVec.getLsbD_extractLsb', decide_eq_true hk, Bool.true_and, Nat.zero_add]

theorem getLsbD_highHalf (v : Packed) {k : Nat} (hk : k < 32) :
    (highHalf v).getLsbD k = v.getLsbD (32 + k) := by
  rw [highHalf, BitVec.getLsbD_extractLsb', decide_eq_true hk, Bool.true_and]

/-- The high half moved up by one nibble takes in the nibble at position 7. -/
theorem getLsbD_crossing (v : Packed) {k : Nat} (hk : k < 32) :
    ((highHalf v <<< 4) ||| (lowHalf v >>> 28)).getLsbD k = v.getLsbD (28 + k) := by
  rw [BitVec.getLsbD_or, BitVec.getLsbD_shiftLeft, BitVec.getLsbD_ushiftRight]
  by_cases h4 : k < 4
  · simp only [h4, decide_true, Bool.not_true, Bool.and_false, Bool.false_and, Bool.false_or,
      getLsbD_lowHalf v (show 28 + k < 32 by omega)]
  · rw [getLsbD_highHalf v (by omega), BitVec.getLsbD_of_ge (lowHalf v) _ (by omega),
      show 32 + (k - 4) = 28 + k by omega]
    simp only [hk, h4, decide_true, decide_false, Bool.not_false, Bool.and_self, Bool.true_and,
      Bool.or_false]

/-- From position 8 on, the insertion is one into the high half. -/
theorem insertByHalves_high (v : Packed) {p : Nat} (i : Slot) (h8 : 8 ≤ p) (hp : p < 16) :
    insertByHalves v p i = insertNibble v p i := by
  obtain ⟨q, rfl⟩ := Nat.exists_eq_add_of_le h8
  rw [insertByHalves, if_pos h8, Nat.add_sub_cancel_left]
  refine BitVec.eq_of_getLsbD_eq fun k hk => ?_
  rw [getLsbD_insertNibble _ _ _ _ hp hk, BitVec.getLsbD_append]
  by_cases hlow : k < 32
  · rw [if_pos hlow, if_pos (by omega), getLsbD_lowHalf v hlow]
  · obtain ⟨j, rfl⟩ := Nat.exists_eq_add_of_le (Nat.le_of_not_lt hlow)
    rw [if_neg hlow, Nat.add_sub_cancel_left, getLsbD_insertHalf _ _ (by omega) (by omega),
      getLsbD_highHalf v (by omega), getLsbD_highHalf v (by omega)]
    have hbelow : 32 + j < 4 * (8 + q) ↔ j < 4 * q := by omega
    have hat : 32 + j < 4 * (8 + q) + 4 ↔ j < 4 * q + 4 := by omega
    have hoffset : 32 + j - 4 * (8 + q) = j - 4 * q := by omega
    simp only [hbelow, hat, hoffset]
    split_ifs
    · rfl
    · rfl
    · rw [Nat.add_sub_assoc (by omega)]

/-- Below position 8, the insertion is one into the low half, and the high half moves up. -/
theorem insertByHalves_low (v : Packed) {p : Nat} (i : Slot) (hp : p < 8) :
    insertByHalves v p i = insertNibble v p i := by
  rw [insertByHalves, if_neg (Nat.not_le.2 hp)]
  refine BitVec.eq_of_getLsbD_eq fun k hk => ?_
  rw [getLsbD_insertNibble _ _ _ _ (by omega) hk, BitVec.getLsbD_append]
  by_cases hlow : k < 32
  · rw [if_pos hlow, getLsbD_insertHalf _ _ hp hlow, getLsbD_lowHalf v hlow,
      getLsbD_lowHalf v (by omega)]
  · rw [if_neg hlow, if_neg (by omega), if_neg (by omega), getLsbD_crossing v (by omega)]
    congr 1
    omega

/-- Settles O35. -/
theorem halvesInsertionAgrees : Obligations.HalvesInsertionAgrees := by
  intro v p i hp
  rcases Nat.lt_or_ge p 8 with hlow | hhigh
  · exact insertByHalves_low v i hlow
  · exact insertByHalves_high v i hhigh hp

end Sys2Proof.Machine

/-! The faults (93_implementation_defined.md U9, U10): an operation at a time, what stops it in a
state with the core invariants. The bit scans find slots, the counter is within its reload value,
and the firing loop has iterations enough, for each firing leaves fewer entries due; so an
insertion into a full index is the one fault left. -/

namespace Sys2Proof.Machine

/-! ### The firing loop -/

/-- The positions whose deadline has arrived (44_isr_and_drain.md R210). -/
def State.duePositions (s : State) : Finset Nat :=
  (Finset.range s.count.toNat).filter fun p => sdiff (deadlineAt s p) s.g32 ≤ 0

theorem mem_duePositions {s : State} {p : Nat} :
    p ∈ s.duePositions ↔ p < s.count.toNat ∧ sdiff (deadlineAt s p) s.g32 ≤ 0 := by
  simp [State.duePositions]

theorem duePositions_card_le (s : State) : s.duePositions.card ≤ s.count.toNat :=
  (Finset.card_filter_le _ _).trans_eq (Finset.card_range _)

/-- The loop condition reads the front: it never faults, and it is that position 0 is due. -/
theorem frontDue_eq (s : State) : frontDue s = .ok (decide (0 ∈ s.duePositions)) := by
  by_cases hc : s.count = 0#5
  · simp [frontDue_of_zero hc, mem_duePositions, hc]
  · simp [frontDue_of_ne hc, mem_duePositions, (count_ne_zero_iff s).1 hc]

/-- A pop leaves room for the entry a firing inserts again. -/
theorem fired_count {s : State} (hc : s.count ≠ 0#5) :
    s.fired.count.toNat = s.count.toNat - 1 :=
  count_sub_one s.count ((count_ne_zero_iff s).1 hc)

theorem fireFront_completes {s : State} (h16 : s.count.toNat ≤ 16) (hc : s.count ≠ 0#5) :
    ∃ t, fireFront s = .ok t := by
  have hpos := (count_ne_zero_iff s).1 hc
  cases hr : (s.record s.front).repeating with
  | false => exact ⟨_, fireFront_oneShot hc hr⟩
  | true =>
    refine ⟨_, (fireFront_periodic hc hr).trans (insertSorted_of_lt _ ?_)⟩
    change s.fired.count.toNat < 16
    rw [fired_count hc]
    omega

/-- A re-armed deadline lies a period ahead: it is not due. -/
theorem rearmed_not_due {s : State} {i : Slot} (hp : (s.record i).periodOk) :
    ¬ sdiff (s.rearmedRecord i).nextFireUs s.g32 ≤ 0 := by
  obtain ⟨hpos, hlt⟩ := hp
  rw [State.rearmedRecord, sdiff_deadlineAfter _ _ hlt]
  omega

/-- What is due after a firing was due before it, and a periodic front is not among it. -/
theorem due_of_fireFront {s t : State} (hst : s.StoreInv) (hf : fireFront s = .ok t) {j : Slot}
    (hdue : sdiff (t.record j).nextFireUs t.g32 ≤ 0) :
    sdiff (s.record j).nextFireUs s.g32 ≤ 0 ∧
      ¬(s.front = j ∧ (s.record s.front).repeating = true) := by
  have hg : t.g32 = s.g32 := by rw [fireFront_eq hf]; rfl
  rw [hg, fireFront_record hf] at hdue
  split at hdue
  · exact absurd hdue
      (rearmed_not_due (hst.periodRange _ (isScheduled_front (fireFront_fired hf).1)))
  · rename_i hj
    exact ⟨hdue, hj⟩

/-- A position a firing leaves due was due where its slot stood behind the front. -/
theorem mem_duePositions_of_fireFront {s t : State} (hst : s.StoreInv) (hf : fireFront s = .ok t)
    {p q : Nat} (hq : q ∈ t.duePositions) (hp : p < s.count.toNat) (h0 : p ≠ 0)
    (e : nib t.sorted q = nib s.sorted p) : p ∈ s.duePositions.erase 0 := by
  have hdue := (due_of_fireFront hst hf (mem_duePositions.1 hq).2).1
  rw [getAt, e] at hdue
  exact Finset.mem_erase.2 ⟨h0, mem_duePositions.2 ⟨hp, hdue⟩⟩

/-- The index after a periodic front has fired: it stands at some position `k`, what stood behind
it up to there has moved one down, and the rest is as it was. -/
theorem fireFront_periodic_nib {s t : State} (h16 : s.count.toNat ≤ 16)
    (hr : (s.record s.front).repeating = true) (hf : fireFront s = .ok t) :
    ∃ k < s.count.toNat, t.count.toNat = s.count.toNat ∧ nib t.sorted k = s.front ∧
      (∀ q < k, nib t.sorted q = nib s.sorted (q + 1)) ∧
      ∀ q, k < q → q < s.count.toNat → nib t.sorted q = nib s.sorted q := by
  obtain ⟨hc, ⟨hr', -⟩ | ⟨-, hi⟩⟩ := fireFront_fired hf
  · rw [hr] at hr'
    cases hr'
  · have hpos := (count_ne_zero_iff s).1 hc
    have hless : (s.fired.setRecord s.front (s.rearmedRecord s.front)).count.toNat =
        s.count.toNat - 1 := fired_count hc
    have hpop : ∀ q, nib (s.fired.setRecord s.front (s.rearmedRecord s.front)).sorted q =
        nib s.sorted (q + 1) := nib_pop s.sorted
    obtain ⟨k, hk, hcount, -, -, hq⟩ := insertSorted_nib hi
    rw [hless] at hk hcount
    refine ⟨k, by omega, by omega, ?_, fun q hlt => ?_, fun q hlt hqc => ?_⟩
    · rw [hq k (by omega), if_neg (lt_irrefl k), if_pos rfl]
    · rw [hq q (by omega), if_pos hlt, hpop]
    · rw [hq q (by omega), if_neg (by omega), if_neg (by omega), hpop,
        Nat.sub_add_cancel (by omega)]

/-- The positions a firing leaves due come from as many behind the front that were due before. -/
theorem duePositions_fireFront {s t : State} (hst : s.StoreInv) (hf : fireFront s = .ok t) :
    ∃ m : Nat → Nat, Set.InjOn m t.duePositions ∧
      ∀ q ∈ t.duePositions, m q ∈ s.duePositions.erase 0 := by
  obtain ⟨hc, ⟨-, rfl⟩ | ⟨hr, -⟩⟩ := fireFront_fired hf
  · refine ⟨(· + 1), fun _ _ _ _ hab => Nat.succ_injective hab, fun q hq => ?_⟩
    have hlt := (mem_duePositions.1 hq).1
    rw [fired_count hc] at hlt
    exact mem_duePositions_of_fireFront hst hf hq (Nat.add_lt_of_lt_sub hlt) q.succ_ne_zero
      (nib_pop s.sorted q)
  · obtain ⟨k, hkc, hcount, hk, hbelow, habove⟩ := fireFront_periodic_nib hst.countLe hr hf
    have hne : ∀ q ∈ t.duePositions, q ≠ k := by
      rintro q hq rfl
      exact (due_of_fireFront hst hf (mem_duePositions.1 hq).2).2 ⟨hk.symm, hr⟩
    refine ⟨fun q => if q < k then q + 1 else q, fun a ha b hb hab => ?_, fun q hq => ?_⟩
    · have hak := hne a ha
      have hbk := hne b hb
      dsimp only at hab
      split_ifs at hab <;> omega
    · have hqk := hne q hq
      have hlt := (mem_duePositions.1 hq).1
      dsimp only
      split
      · rename_i hltk
        exact mem_duePositions_of_fireFront hst hf hq (by omega) (by omega) (hbelow q hltk)
      · exact mem_duePositions_of_fireFront hst hf hq (by omega) (by omega)
          (habove q (by omega) (by omega))

/-- A firing leaves fewer positions due (44_isr_and_drain.md R211). -/
theorem duePositions_card_fireFront {s t : State} (hst : s.StoreInv)
    (hd : 0 ∈ s.duePositions) (hf : fireFront s = .ok t) :
    t.duePositions.card < s.duePositions.card := by
  obtain ⟨m, hinj, hm⟩ := duePositions_fireFront hst hf
  exact (Finset.card_le_card_of_injOn m hm hinj).trans_lt (Finset.card_erase_lt_of_mem hd)

/-- As many iterations as positions are due suffice. -/
theorem fireLoop_completes (fuel : Nat) {s : State} (hst : s.StoreInv)
    (hcard : s.duePositions.card ≤ fuel) : ∃ t, fireLoop fuel s = .ok t := by
  induction fuel generalizing s with
  | zero =>
    have hnone : 0 ∉ s.duePositions := by
      rw [Finset.card_eq_zero.1 (Nat.le_zero.1 hcard)]
      exact Finset.notMem_empty 0
    exact ⟨s, fireLoop_done 0 (by rw [frontDue_eq, decide_eq_false hnone])⟩
  | succ n ih =>
    by_cases hd : 0 ∈ s.duePositions
    · have hc : s.count ≠ 0#5 := (count_ne_zero_iff s).2 (mem_duePositions.1 hd).1
      obtain ⟨u, hu⟩ := fireFront_completes hst.countLe hc
      have hless := duePositions_card_fireFront hst hd hu
      obtain ⟨t, ht⟩ := ih (hst.fireFront hu) (by omega)
      refine ⟨t, ?_⟩
      rw [fireLoop_more n (by rw [frontDue_eq, decide_eq_true hd]), hu]
      exact ht
    · exact ⟨s, fireLoop_done _ (by rw [frontDue_eq, decide_eq_false hd])⟩

/-- The interrupt operation completes: at most 16 entries are due. -/
theorem onTimerUpdate_completes {s : State} (h : s.StoreInv) : ∃ t, onTimerUpdate s = .ok t := by
  have hst : (advanceTick (acknowledgeUpdate s)).StoreInv := h.of_eq rfl
  obtain ⟨u, hu⟩ := fireLoop_completes Config.kMaxTasks hst
    ((duePositions_card_le _).trans hst.countLe)
  obtain ⟨t, ht, -⟩ := scheduleNextInterval_spec u
  exact ⟨t, by simp only [onTimerUpdate, hu, ht]⟩

/-! ### The other operations -/

theorem drainStep_completes {s : State} (h : s.StoreInv) : ∃ t, drainStep s = .ok t := by
  by_cases hr : s.ready = 0#32
  · exact ⟨_, drainStep_empty hr⟩
  · obtain ⟨i, -, hd⟩ := drainStep_lowest h.readyHigh hr
    exact ⟨_, hd⟩

theorem startBody_completes (s : State) : ∃ t, startBody s = .ok t := by
  cases hp : prescalerOf s.platform with
  | none => exact ⟨raiseConfigFault s, by simp only [startBody, configurePrescaler, hp]⟩
  | some v =>
    obtain ⟨u, hu, -⟩ := scheduleNextInterval_spec (s.initialised v)
    rw [State.initialised] at hu
    exact ⟨u.respond .ok 0#64, by simp only [startBody, configurePrescaler, hp, hu]⟩

theorem removalBody_completes (b : Bool) (i : Slot) (s : State) :
    ∃ t, removalBody b i s = .ok t := by
  cases b with
  | false => exact ⟨_, rfl⟩
  | true =>
    obtain ⟨u, hu, -⟩ := removeCommon_spec i s
    exact ⟨u.respond .ok 1#64, by simp only [removalBody, hu, if_true]⟩

/-- TICK completes while the counter is within its reload value (V9). -/
theorem countTick_completes {s : State} (h : s.cnt ≤ s.arr) : ∃ t, countTick s = .ok t := by
  by_cases he : s.cnt = s.arr
  · exact ⟨_, by rw [countTick, if_pos he]⟩
  · exact ⟨_, by rw [countTick, if_neg he, if_pos (BitVec.lt_of_le_ne h he)]⟩

/-- A registration completes while the index has room, and where no slot is free. -/
theorem registrationBody_completes {s : State} (h : s.StoreInv) (p : Micros) (cb : Token)
    (rep : Bool) (hroom : s.count.toNat < 16 ∨ s.free = 0#32) :
    ∃ t, registrationBody p cb rep s = .ok t := by
  suffices ∃ r, registerCommon p cb rep s = .ok r by
    obtain ⟨⟨id, u⟩, hr⟩ := this
    exact ⟨u.respond .ok (id.setWidth 64), by simp only [registrationBody, hr]⟩
  by_cases hfail : registrationValid p cb = false ∨ s.free = 0#32
  · exact ⟨_, registerCommon_failure hfail⟩
  · rw [not_or, Bool.not_eq_false] at hfail
    obtain ⟨hv, hfree⟩ := hfail
    obtain ⟨i, hi, -⟩ := allocateSlot_lowest h.freeHigh hfree
    obtain ⟨-, t, -, -, hr⟩ := registerCommon_success rep hv hi (hroom.resolve_right hfree)
    exact ⟨_, hr⟩

/-- The fault of a registration with a free slot and a full index: the model's choice of log 9. -/
theorem registrationBody_fault {s : State} {p : Micros} {cb : Token} {rep : Bool} {f : Fault}
    (h : s.StoreInv) (hf : registrationBody p cb rep s = .error f) :
    f = .indexFull ∧ s.count.toNat = 16 ∧ s.free ≠ 0#32 := by
  have hroom : ¬(s.count.toNat < 16 ∨ s.free = 0#32) := fun hr => by
    obtain ⟨t, ht⟩ := registrationBody_completes h p cb rep hr
    rw [hf] at ht
    cases ht
  rw [not_or, not_lt] at hroom
  obtain ⟨hfull, hfree⟩ := hroom
  refine ⟨?_, le_antisymm h.countLe hfull, hfree⟩
  obtain ⟨i, -, ha⟩ := allocateSlot_lowest h.freeHigh hfree
  have hi : insertSorted i (s.registering p cb rep i) = .error .indexFull :=
    if_neg (not_lt.2 hfull)
  rw [State.registering] at hi
  unfold registrationBody registerCommon at hf
  by_cases hv : registrationValid p cb = true
  · simp only [hv, ha, hi, if_true, Except.error.injEq] at hf
    exact hf.symm
  · simp [hv] at hf

/-! ### Every operation -/

theorem outcome_eq_fault {r : Except Fault State} {f : Fault} :
    outcome r = .fault f ↔ r = .error f := by
  cases r <;> simp [outcome]

/-- A host command ends in a fault only where its body does. -/
theorem hostCommand_fault {c : CommandClass} {body : State → Except Fault State} {s : State}
    {f : Fault} (h : hostCommand c body s = .fault f) : body s = .error f := by
  unfold hostCommand at h
  split at h
  · exact outcome_eq_fault.1 h
  · cases h

/-- An environment event ends in a fault only where it is enabled and its body does. -/
theorem environmentEvent_fault {b : Bool} {r : Refusal} {body : State → Except Fault State}
    {s : State} {f : Fault} (h : environmentEvent b r body s = .fault f) :
    b = true ∧ body s = .error f := by
  unfold environmentEvent at h
  split at h
  · exact ⟨‹_›, outcome_eq_fault.1 h⟩
  · cases h

theorem ne_error_of_completes {r : Except Fault State} {f : Fault} (hc : ∃ t, r = .ok t) :
    r ≠ .error f := by
  obtain ⟨t, rfl⟩ := hc
  exact fun he => nomatch he

/-- With the core invariants an operation that ends in a fault is a registration that found a free
slot and a full index. -/
theorem exec_fault {s : State} {i : Instr} {f : Fault} (h : s.CoreInv)
    (hf : exec i s = .fault f) :
    f = .indexFull ∧ s.count.toNat = 16 ∧ s.free ≠ 0#32 ∧
      ((∃ d cb, i = .registerTask d cb) ∨ ∃ d cb, i = .setTimeout d cb) := by
  have hst := h.toStoreInv
  cases i with
  | registerTask p cb =>
    obtain ⟨rfl, hfull, hfree⟩ := registrationBody_fault hst (hostCommand_fault hf)
    exact ⟨rfl, hfull, hfree, .inl ⟨p, cb, rfl⟩⟩
  | setTimeout p cb =>
    obtain ⟨rfl, hfull, hfree⟩ := registrationBody_fault hst (hostCommand_fault hf)
    exact ⟨rfl, hfull, hfree, .inr ⟨p, cb, rfl⟩⟩
  | start => exact absurd (hostCommand_fault hf) (ne_error_of_completes (startBody_completes s))
  | unregisterTask id =>
    exact absurd (hostCommand_fault hf) (ne_error_of_completes (removalBody_completes _ _ s))
  | cancelTimeout id =>
    exact absurd (hostCommand_fault hf) (ne_error_of_completes (removalBody_completes _ _ s))
  | update => exact absurd (hostCommand_fault hf) (ne_error_of_completes (drainStep_completes hst))
  | getGlobalTick =>
    exact absurd (hostCommand_fault (c := .callable) (body := fun s => .ok (s.respond .ok s.g)) hf)
      (ne_error_of_completes ⟨_, rfl⟩)
  | onTimerUpdate =>
    exact absurd (environmentEvent_fault hf).2 (ne_error_of_completes (onTimerUpdate_completes hst))
  | cbReturn =>
    exact absurd (environmentEvent_fault hf).2
      (ne_error_of_completes (drainStep_completes hst.finishCallback))
  | tick =>
    obtain ⟨henabled, hb⟩ := environmentEvent_fault hf
    obtain ⟨-, -, hcen⟩ := (tickEnabled_iff s).1 henabled
    exact absurd hb (ne_error_of_completes (countTick_completes (h.reload hcen).2))

/-- A step ends in a fault only where the operation it performs does. -/
theorem step_fault {s : State} {f : Fault} (h : step s = .fault f) :
    ∃ i, s.nextIs i ∧ exec i s.tail = .fault f := by
  unfold step at h
  split at h
  · cases h
  · rename_i x rest hx
    split at h
    · rename_i i hr
      exact ⟨i, ⟨x, by rw [hx, List.head?_cons], hr⟩, h⟩
    · cases h
    · cases h

/-- Settles O45: a step faults only in its operation, and only a registration does. -/
theorem onlyAFullIndexCanFault : Obligations.OnlyAFullIndexCanFault := by
  intro s f h hf
  obtain ⟨i, hnext, he⟩ := step_fault hf
  obtain ⟨rfl, hfull, hfree, hi⟩ := exec_fault (h.withStreams s.stimuli.tail s.outputs) he
  refine ⟨rfl, hfull, hfree, ?_⟩
  rcases hi with ⟨d, cb, rfl⟩ | ⟨d, cb, rfl⟩
  · exact .inl ⟨d, cb, hnext⟩
  · exact .inr ⟨d, cb, hnext⟩

end Sys2Proof.Machine

/-! The timer, step by step: what one TICK does (42_timer_driver.md R161), and, while the interrupt
is served at once, the conservation of real time (R168). Apart from START no host command and no
end of a callback moves `G + CNT`: all they do to either is run the reload controller. -/

namespace Sys2Proof.Machine

/-! ### TICK -/

theorem exec_tick_enabled {s : State} (hs : s.started = true) (hf : s.faulted = false)
    (hc : s.cen = true) : exec .tick s = outcome (countTick s) :=
  if_pos ((tickEnabled_iff s).2 ⟨hs, hf, hc⟩)

theorem countTick_reload {s : State} (h : s.cnt = s.arr) :
    countTick s = .ok { s with cnt := 0#32, uif := true } :=
  if_pos h

theorem countTick_below {s : State} (h : s.cnt < s.arr) :
    countTick s = .ok { s with cnt := s.cnt + 1#32 } := by
  rw [countTick, if_neg (BitVec.ne_of_lt h), if_pos h]

theorem countTick_above {s : State} (h : s.arr < s.cnt) :
    countTick s = .error .counterPastReload := by
  rw [countTick, if_neg (BitVec.ne_of_lt h).symm, if_neg (BitVec.not_lt.2 (BitVec.le_of_lt h))]

/-- Settles O21: an enabled TICK is one count of the timer. -/
theorem tickCountsToReload : Obligations.TickCountsToReload := by
  refine ⟨decode_encode .tick, fun s hoff => ?_, fun s hs hf hc => ?_⟩
  · obtain ⟨-, -, hrefused, -⟩ := gateAndEnabling
    refine hrefused s ?_
    rintro ⟨hs, hf, hc⟩
    simp [hs, hf, hc] at hoff
  · rw [exec_tick_enabled hs hf hc]
    exact ⟨fun h => by rw [countTick_reload h]; rfl, fun h => by rw [countTick_below h]; rfl,
      fun h => by rw [countTick_above h]; rfl⟩

/-! ### Real time -/

/-- In a started block only the two events of the timer move `G + CNT`: TICK counts, and the
interrupt adds `cur`. A run of the reload controller keeps the sum, the overrun path included
(R166). -/
theorem Effect.keeps_time {s t : State} {i : Instr} (he : Effect s i t) (hs : s.started = true)
    (htick : i ≠ .tick) (hint : i ≠ .onTimerUpdate) :
    t.g + t.cnt.setWidth 64 = s.g + s.cnt.setWidth 64 := by
  cases he with
  | configFault h0 | started h0 => exact absurd hs (Bool.eq_false_iff.1 h0)
  | answered => rfl
  | registered _ _ _ _ hi hu => exact (reprogrammed_time hu).trans (by rw [insertSorted_eq hi]; rfl)
  | removed _ _ _ _ hu => exact (reprogrammed_time hu).trans (by rw [removeSorted_eq]; rfl)
  | drained _ _ ht => rw [drainStep_eq ht]
  | returned _ ht => rw [drainStep_eq ht, finishCallback_eq]
  | interrupted => exact absurd rfl hint
  | reloaded | counted => exact absurd rfl htick

/-- With no update event pending, an operation of a started block that is none of the timer's events
leaves real time as it is: it raises no update event either. -/
theorem Effect.keeps_realTime {s t : State} {i : Instr} (he : Effect s i t)
    (hs : s.started = true) (hlow : s.uif = false) (htick : i ≠ .tick)
    (hint : i ≠ .onTimerUpdate) : t.realTime = s.realTime := by
  have htlow : t.uif = false := by
    rcases he.uif_cases with e | ⟨h, -⟩ | ⟨-, e⟩
    · exact e.trans hlow
    · exact absurd h htick
    · exact e
  rw [realTime_of_low htlow, realTime_of_low hlow, he.keeps_time hs htick hint]

/-- The next stimulus performs one operation at most. -/
theorem State.nextIs_unique {s : State} {i j : Instr} (hi : s.nextIs i) (hj : s.nextIs j) :
    i = j := by
  obtain ⟨x, hx, hxi⟩ := hi
  obtain ⟨y, hy, hyj⟩ := hj
  cases hx.symm.trans hy
  cases hxi.symm.trans hyj
  rfl

/-- Real time over one operation of a started block in which a pending update event admits the
interrupt operation only. -/
theorem exec_time {s t : State} {i : Instr} (hi : s.CoreInv) (hs : s.started = true)
    (hprompt : s.uif = true → i = .onTimerUpdate) (h : exec i s = .next t) :
    t.realTime = s.realTime + if i = .tick then 1#64 else 0#64 := by
  by_cases hint : i = .onTimerUpdate
  · subst hint
    obtain ⟨-, htime⟩ := exec_onTimerUpdate_time h
    simpa using htime
  have hlow : s.uif = false := Bool.eq_false_iff.2 (mt hprompt hint)
  by_cases htick : i = .tick
  · subst htick
    exact exec_tick_time hi hlow h
  · simpa [htick] using (effect_of_exec h).keeps_realTime hs hlow htick hint

/-- Settles O25: a step performs its operation, where a pending update event leaves the interrupt
alone, or performs none and changes no element that real time is read from. -/
theorem promptServiceConservesTime : Obligations.PromptServiceConservesTime := by
  intro s t hi hs hprompt hstep
  have idle (hnone : ∀ i, ¬ s.nextIs i) (htime : t.realTime = s.realTime) :
      (s.nextIs .tick → t.realTime = s.realTime + 1#64) ∧
        (¬ s.nextIs .tick → t.realTime = s.realTime) :=
    ⟨fun h => absurd h (hnone _), fun _ => htime⟩
  rcases step_cases hstep with ⟨hempty, rfl⟩ | ⟨i, hnext, he⟩ | ⟨x, hx, hillegal, rfl⟩
  · refine idle ?_ rfl
    rintro i ⟨x, hx, -⟩
    simp [hempty] at hx
  · have hserve (hf : s.uif = true) : i = .onTimerUpdate :=
      State.nextIs_unique hnext (hprompt ((irqLine_iff s).2 ⟨hf, hi.interruptOn hs⟩))
    have htime : t.realTime = s.realTime + if i = .tick then 1#64 else 0#64 :=
      exec_time (s := s.tail) (hi.withStreams _ _) hs hserve he
    have htick : s.nextIs .tick ↔ i = .tick :=
      ⟨State.nextIs_unique hnext, fun h => h ▸ hnext⟩
    rw [htick, htime]
    exact ⟨fun h => by rw [if_pos h], fun h => by rw [if_neg h, BitVec.add_zero]⟩
  · refine idle ?_ rfl
    rintro i ⟨y, hy, hperform⟩
    cases hx.symm.trans hy
    cases hillegal.symm.trans hperform

end Sys2Proof.Machine

/-! The host commands of 43_scheduler_api.md: START (R180), the registrations (R181 to R183), the
cancellations (R184 to R186) and GET_GLOBAL_TICK (R187). Each is its body behind the gate, and the
last thing a body does to the scheduler is one run of the reload controller; so each effect is the
state that run begins in, the fields it leaves alone, and one response. -/

namespace Sys2Proof.Machine

/-! ### The gate and the reload controller -/

/-- A started block that has not faulted performs a callable command (30_encoding.md R110). -/
theorem callable_accepted {body : State → Except Fault State} {s : State}
    (hs : s.started = true) (hf : s.faulted = false) :
    hostCommand .callable body s = outcome (body s) :=
  hostCommand_accepted (gateAccepts_callable.2 ⟨hf, hs⟩)

/-- How the timer is reprogrammed depends on where it stands: `ARR`, `CNT` and `G`. -/
theorem TimerReprogrammed.of_timer_eq {s s' t : State} (h : TimerReprogrammed s t)
    (harr : s'.arr = s.arr) (hcnt : s'.cnt = s.cnt) (hg : s'.g = s.g) : TimerReprogrammed s' t := by
  have hg32 : s'.g32 = s.g32 := congrArg (BitVec.setWidth 32) hg
  rwa [TimerReprogrammed, harr, hcnt, hg, hg32]

theorem reprogrammed_isFree {s t : State} (h : scheduleNextInterval s = .ok t) (j : Slot) :
    t.isFree j = s.isFree j := by
  obtain ⟨-, e⟩ := scheduleNextInterval_cases h
  rw [e]; rfl

theorem reprogrammed_isReady {s t : State} (h : scheduleNextInterval s = .ok t) (j : Slot) :
    t.isReady j = s.isReady j := by
  obtain ⟨-, e⟩ := scheduleNextInterval_cases h
  rw [e]; rfl

theorem reprogrammed_isScheduled {s t : State} (h : scheduleNextInterval s = .ok t) (j : Slot) :
    t.isScheduled j = s.isScheduled j := by
  obtain ⟨-, e⟩ := scheduleNextInterval_cases h
  rw [e]; rfl

/-! ### START -/

/-- START on a valid clock with nothing scheduled: the reload controller leaves the block Idle. -/
theorem startBody_of_prescaler {s : State} {v : Nat} (hp : prescalerOf s.platform = some v)
    (hc : s.count = 0#5) :
    startBody s =
      .ok (({ s.initialised v with cen := false, cur := 0#32 } : State).respond .ok 0#64) := by
  obtain ⟨t, ht⟩ := startBody_completes s
  rcases startBody_cases ht with ⟨hnone, -⟩ | ⟨w, u, hw, hu, rfl⟩
  · cases hp.symm.trans hnone
  · cases hp.symm.trans hw
    cases (scheduleNextInterval_idle (s := s.initialised v) hc).symm.trans hu
    exact ht

theorem startBody_of_no_prescaler {s : State} (hp : prescalerOf s.platform = none) :
    startBody s = .ok (raiseConfigFault s) := by
  obtain ⟨t, ht⟩ := startBody_completes s
  rcases startBody_cases ht with ⟨-, rfl⟩ | ⟨v, u, hv, -⟩
  · exact ht
  · cases hp.symm.trans hv

/-- Settles O13: the prescaler has a value exactly on a valid clock, and decides which of its two
ends START comes to. -/
theorem startInitialisesOrFaults : Obligations.StartInitialisesOrFaults := by
  intro s hs hf hc
  have hexec : exec .start s = outcome (startBody s) :=
    hostCommand_accepted (gateAccepts_start.2 ⟨hf, hs⟩)
  rw [hexec]
  constructor
  · intro hdvd hpos hmax
    rw [startBody_of_prescaler ((prescalerOf_eq_some_iff _ _).2 ⟨hdvd, hpos, hmax, rfl⟩) hc]
    rfl
  · intro hinvalid
    rw [startBody_of_no_prescaler ((prescalerOf_eq_none_iff _).2 hinvalid)]
    rfl

/-! ### Registration -/

theorem registrationValid_of {p : Micros} {cb : Token} (hcb : cb ≠ 0#32) (hp : p.toNat < 2 ^ 31) :
    registrationValid p cb = true := by
  have hclamp : clampPeriod p < Config.kMaxIntervalUs := by
    unfold clampPeriod
    split
    · decide
    · exact BitVec.lt_def.2 hp
  simp [registrationValid, hcb, hclamp]

/-- The whole state a registration leaves, but for the timer's programming. -/
theorem registered_eq {s s2 t : State} {p : Micros} {cb : Token} {rep : Bool} {i : Slot}
    (hi : insertSorted i (s.registering p cb rep i) = .ok s2)
    (hu : scheduleNextInterval s2 = .ok t) :
    t = { s.registering p cb rep i with
      sorted := insertNibble s.sorted (searchPosition (s.registering p cb rep i)
        (deadlineAfter s.g32 (clampPeriod p))) i
      count := s.count + 1#5
      cur := t.cur, arr := t.arr, cnt := t.cnt, g := t.g, cen := t.cen } := by
  obtain ⟨-, e⟩ := scheduleNextInterval_cases hu
  obtain ⟨-, rfl⟩ := insertSorted_cases hi
  rw [registering_record, if_pos rfl] at e
  exact e

theorem registered_timer {s s2 t : State} {p : Micros} {cb : Token} {rep : Bool} {i : Slot}
    (hi : insertSorted i (s.registering p cb rep i) = .ok s2)
    (hu : scheduleNextInterval s2 = .ok t) : TimerReprogrammed s t := by
  obtain ⟨htimer, -⟩ := scheduleNextInterval_cases hu
  refine htimer.of_timer_eq ?_ ?_ ?_ <;> rw [insertSorted_eq hi] <;> rfl

/-- A registration with valid arguments, a free slot and room in the index, behind the gate. -/
theorem exec_registration {s : State} {p : Micros} {cb : Token} (rep : Bool) {i : Slot}
    (hs : s.started = true) (hf : s.faulted = false) (hv : registrationValid p cb = true)
    (hi : s.lowestFree i) (hc : s.count.toNat < 16) :
    ∃ s2 u, insertSorted i (s.registering p cb rep i) = .ok s2 ∧
      scheduleNextInterval s2 = .ok u ∧
      exec (registration rep p cb) s = .next (u.respond .ok ((u.record i).id.setWidth 64)) := by
  obtain ⟨s2, u, hins, hu, hreg⟩ := registerCommon_success rep hv hi hc
  have hexec : exec (registration rep p cb) s =
      hostCommand .callable (registrationBody p cb rep) s := by cases rep <;> rfl
  refine ⟨s2, u, hins, hu, ?_⟩
  rw [hexec, callable_accepted hs hf, registrationBody, hreg]
  rfl

/-- Settles O14: every field is read from the one state a registration leaves; the search ran over
the index before the insertion, with the new record in its slot. -/
theorem registrationCompletes : Obligations.RegistrationCompletes := by
  intro s rep p cb i hs hf hcb hp hc hi
  obtain ⟨s2, u, hins, hu, hexec⟩ :=
    exec_registration rep hs hf (registrationValid_of hcb hp) hi hc
  have hinstr : (if rep then .registerTask p cb else .setTimeout p cb) = registration rep p cb := by
    cases rep <;> rfl
  have e := registered_eq hins hu
  have hrecord (j : Slot) : u.record j =
      if i = j then newRecord s (clampPeriod p) cb rep i else s.record j :=
    (congrArg (State.record · j) e).trans (registering_record s p cb rep i j)
  have hnew : u.record i = newRecord s (clampPeriod p) cb rep i := by rw [hrecord, if_pos rfl]
  have hsearch (new : Micros) : searchPosition (s.registering p cb rep i) new =
      searchPosition (s.setRecord i (u.record i)) new := by
    rw [hnew]
    exact searchPosition_congr new rfl rfl rfl
  have hsorted : u.sorted = insertNibble s.sorted
      (searchPosition (s.setRecord i (u.record i)) (u.record i).nextFireUs) i := by
    rw [← hsearch, hnew]
    exact congrArg State.sorted e
  have hcontrol : SameControl s u := by
    rw [e]
    exact ⟨rfl, rfl, rfl, rfl, rfl, rfl, rfl, rfl, rfl⟩
  have hstores : u.free = clearBit s.free i ∧ u.ready = s.ready ∧
      u.gen = (if rep then s.gen else nextGeneration s.gen) ∧ u.count = s.count + 1#5 ∧
      u.outputs = s.outputs := by
    rw [e]
    exact ⟨rfl, rfl, rfl, rfl, rfl⟩
  obtain ⟨hfree, hready, hgen, hcount, houtputs⟩ := hstores
  have htimer := registered_timer hins hu
  rw [hinstr]
  exact ⟨_, hexec, hnew, fun j hj => (hrecord j).trans (if_neg hj.symm), hfree, hready, hgen,
    hcount, hsorted, htimer, hcontrol, by rw [State.respond_outputs, houtputs]; rfl⟩

/-! ### Cancellation -/

/-- What `remove_common` does (43_scheduler_api.md R185). -/
theorem slotRemoved_of_reprogrammed {s u : State} {i : Slot}
    (hu : scheduleNextInterval (releaseSlot i (removeSorted i s)) = .ok u) : SlotRemoved s u i := by
  obtain ⟨htimer, e⟩ := scheduleNextInterval_cases hu
  have hindex : u.sorted = (removeSorted i s).sorted ∧ u.count = (removeSorted i s).count := by
    rw [e]
    exact ⟨rfl, rfl⟩
  have hr := removeSorted_eq i s
  have htime : TimerReprogrammed s u := by
    refine htimer.of_timer_eq ?_ ?_ ?_ <;> rw [hr] <;> rfl
  have hcontrol : SameControl s u := by
    rw [e, hr]
    exact ⟨rfl, rfl, rfl, rfl, rfl, rfl, rfl, rfl, rfl⟩
  have hstores : u.ready = clearBit s.ready i ∧ u.free = setBit s.free i ∧ u.tasks = s.tasks ∧
      u.gen = s.gen := by
    rw [e, hr]
    exact ⟨rfl, rfl, rfl, rfl⟩
  obtain ⟨hready, hfree, htasks, hgen⟩ := hstores
  refine ⟨fun habsent => ?_, fun p hp hpi hleast => ?_, hready, hfree, htasks, hgen, htime,
    hcontrol⟩
  · rcases removeSorted_cases i s with ⟨-, e'⟩ | ⟨p, hp, rfl, -⟩
    · rwa [e'] at hindex
    · rw [isScheduled_nib s hp] at habsent
      cases habsent
  · have hfind : findPosition s.sorted s.count.toNat i = some p :=
      (findPosition_eq_some_iff _ _ _ _).2 ⟨hpi, hp, hleast⟩
    rwa [removeSorted, hfind] at hindex

/-- A removed slot is free and in neither store. -/
theorem slot_gone_of_reprogrammed {s u : State} {i : Slot} (h16 : s.count.toNat ≤ 16)
    (hn : ∀ p q, p < q → q < s.count.toNat → nib s.sorted p ≠ nib s.sorted q)
    (hu : scheduleNextInterval (releaseSlot i (removeSorted i s)) = .ok u) :
    u.isFree i = true ∧ u.isScheduled i = false ∧ u.isReady i = false := by
  rw [reprogrammed_isFree hu, reprogrammed_isScheduled hu, reprogrammed_isReady hu,
    isScheduled_releaseSlot, isScheduled_removeSorted h16 hn]
  simp

section Removal

variable {s : State} {checks : State → Bool} {j : Slot}

/-- A removal whose checks pass answers 1 and removes its slot. -/
theorem removal_succeeds (hs : s.started = true) (hf : s.faulted = false)
    (hc : checks s = true) :
    ∃ t, hostCommand .callable (fun s => removalBody (checks s) j s) s = .next t ∧
      SlotRemoved s t j ∧ t.outputs = s.outputs ++ [.response ⟨.ok, 1#64⟩] := by
  obtain ⟨t, ht⟩ := removalBody_completes true j s
  rcases removalBody_cases ht with ⟨h, -⟩ | ⟨u, -, hu, rfl⟩
  · cases h
  · have hout : u.outputs = s.outputs := by rw [reprogrammed_outputs hu, removeSorted_eq]; rfl
    have hremoved : SlotRemoved s u j := slotRemoved_of_reprogrammed hu
    refine ⟨u.respond .ok 1#64, ?_, hremoved, by rw [State.respond_outputs, hout]⟩
    rw [callable_accepted hs hf, hc, ht]
    rfl

/-- A removal whose checks fail answers 0 and changes nothing (60_exceptions.md R242). -/
theorem removal_fails (hs : s.started = true) (hf : s.faulted = false)
    (hc : ¬ checks s = true) :
    hostCommand .callable (fun s => removalBody (checks s) j s) s =
      .next { s with outputs := s.outputs ++ [.response ⟨.ok, 0#64⟩] } := by
  rw [callable_accepted hs hf, removalBody, if_neg hc]
  rfl

/-- The answer 1 is given by a removal that has taken place, and by nothing else. -/
theorem removed_of_answer_one {t : State}
    (h : hostCommand .callable (fun s => removalBody (checks s) j s) s = .next t)
    (ho : t.outputs = s.outputs ++ [.response ⟨.ok, 1#64⟩]) :
    ∃ u, scheduleNextInterval (releaseSlot j (removeSorted j s)) = .ok u ∧
      t = u.respond .ok 1#64 := by
  rcases hostCommand_next h with ⟨-, hb⟩ | ⟨-, rfl⟩
  · rcases removalBody_cases hb with ⟨-, rfl⟩ | ⟨u, -, hu, rfl⟩
    · simp at ho
    · exact ⟨u, hu, rfl⟩
  · simp at ho

end Removal

theorem isPeriodicId_iff (id : Handle) : isPeriodicId id = true ↔ id.toNat < 16 :=
  decide_eq_true_iff

theorem unregisterChecks_iff (id : Handle) (s : State) :
    unregisterChecks id s = true ↔ id.toNat < 16 ∧ s.isFree (handleSlot id) = false := by
  rw [unregisterChecks, Bool.and_eq_true, isPeriodicId_iff, Bool.not_eq_true']

theorem cancelChecks_iff (id : Handle) (s : State) :
    cancelChecks id s = true ↔ s.isFree (handleSlot id) = false ∧
      (s.record (handleSlot id)).repeating = false ∧ (s.record (handleSlot id)).id = id := by
  simp [cancelChecks, and_assoc]

/-- Settles O16: UNREGISTER_TASK is a removal whose checks are the rule's two conditions. -/
theorem unregisterTaskEffect : Obligations.UnregisterTaskEffect := by
  refine ⟨fun id => decode_encode (.unregisterTask id), fun s id hs hf =>
    ⟨fun hlt hocc => ?_, fun hfail => ?_⟩⟩
  · exact removal_succeeds hs hf ((unregisterChecks_iff id s).2 ⟨hlt, hocc⟩)
  · refine removal_fails hs hf fun hc => ?_
    obtain ⟨hlt, hocc⟩ := (unregisterChecks_iff id s).1 hc
    rcases hfail with hge | hfree
    · omega
    · cases hfree.symm.trans hocc

/-- Settles O17: CANCEL_TIMEOUT is a removal whose checks are the rule's three conditions. -/
theorem cancelTimeoutEffect : Obligations.CancelTimeoutEffect := by
  refine ⟨fun id => decode_encode (.cancelTimeout id), fun s id hs hf =>
    ⟨fun hocc hone hid => ?_, fun hfail => ?_⟩⟩
  · exact removal_succeeds hs hf ((cancelChecks_iff id s).2 ⟨hocc, hone, hid⟩)
  · refine removal_fails hs hf fun hc => ?_
    obtain ⟨hocc, hone, hid⟩ := (cancelChecks_iff id s).1 hc
    rcases hfail with hfree | hrep | hne
    · cases hfree.symm.trans hocc
    · cases hrep.symm.trans hone
    · exact hne hid

/-- Settles O18: the answer 1 says that the slot was released and taken out of the index, in which
it stood once at most (V4). -/
theorem cancellationIsFinal : Obligations.CancellationIsFinal := by
  intro s t id i hinv hi h ho
  have hremoved : ∃ u, scheduleNextInterval
      (releaseSlot (handleSlot id) (removeSorted (handleSlot id) s)) = .ok u ∧
      t = u.respond .ok 1#64 := by
    rcases hi with rfl | rfl
    · exact removed_of_answer_one h ho
    · exact removed_of_answer_one h ho
  obtain ⟨u, hu, rfl⟩ := hremoved
  exact slot_gone_of_reprogrammed (u := u) hinv.countLe hinv.noRepeat hu

/-! ### Reading the tick -/

/-- Settles O19: GET_GLOBAL_TICK is one response behind the gate. -/
theorem getGlobalTickAnswersTick : Obligations.GetGlobalTickAnswersTick :=
  ⟨decode_encode .getGlobalTick, fun _ hs hf =>
    callable_accepted (body := fun s => .ok (s.respond .ok s.g)) hs hf⟩

end Sys2Proof.Machine

/-! The interrupt operation and the drain (44_isr_and_drain.md R210 to R222). The firing loop is
read slot by slot: it leaves a slot as it was, or it fires it, and what it fires was scheduled and
due. UPDATE and CB_RETURN end in one drain step, which answers or dispatches. -/

namespace Sys2Proof.Machine

/-! ### Intervals -/

/-- Settles O22. -/
theorem intervalForDistance : Obligations.IntervalForDistance := fun d _ hlt =>
  ⟨intervalFor_of_le, fun h => by rw [intervalFor_toNat hlt]; omega⟩

/-! ### One firing, slot by slot -/

theorem reprogrammed_record {s t : State} (h : scheduleNextInterval s = .ok t) (j : Slot) :
    t.record j = s.record j := by
  obtain ⟨-, e⟩ := scheduleNextInterval_cases h
  rw [e]; rfl

/-- A removal leaves every other slot where it was, even in an index that holds a slot twice. -/
theorem isScheduled_removeSorted_of_ne {s : State} {i j : Slot} (h16 : s.count.toNat ≤ 16)
    (hij : i ≠ j) : (removeSorted i s).isScheduled j = s.isScheduled j := by
  rcases removeSorted_cases i s with ⟨-, e⟩ | ⟨p, hp, hi, -, e⟩
  · rw [e]
  · rw [e, Bool.eq_iff_iff, isScheduled_removeNibble hp h16, isScheduled_iff]
    constructor
    · rintro ⟨q, hq, -, hj⟩
      exact ⟨q, hq, hj⟩
    · rintro ⟨q, hq, hj⟩
      exact ⟨q, hq, fun hqp => hij (by rw [← hi, ← hj, hqp]), hj⟩

theorem fireFront_isReady {s t : State} (h : fireFront s = .ok t) (j : Slot) :
    t.isReady j = (s.isReady j || decide (s.front = j)) := by
  rw [fireFront_eq h]
  exact bit_setBit s.ready s.front j

theorem fireFront_g32 {s t : State} (h : fireFront s = .ok t) : t.g32 = s.g32 := by
  rw [fireFront_eq h]; rfl

/-- A ready slot is in the index exactly if its task repeats (V6). -/
theorem State.PlaceInv.isScheduled_of_ready {s : State} (h : s.PlaceInv) {i : Slot}
    (hi : s.isReady i = true) : s.isScheduled i = (s.record i).repeating := by
  have hp := h.placed i
  rw [State.placed, h.occupied_of_ready hi, hi] at hp
  cases hr : (s.record i).repeating with
  | true => simpa [placeOk, hr] using hp
  | false =>
    by_contra hs
    simp [placeOk, hr, eq_true_of_ne_false hs] at hp
    omega

/-- Slot `i` is scheduled and its deadline has arrived or passed. -/
def State.due (s : State) (i : Slot) : Bool :=
  s.isScheduled i && decide (sdiff (s.record i).nextFireUs s.g32 ≤ 0)

/-- What the firing loop, begun in `s`, has done to slot `i` when it has come to `u`: nothing, or
it has popped the slot, due at the tick it works at, marked it ready and re-armed it if it repeats
(44_isr_and_drain.md R210). -/
inductive SlotFate (s u : State) (i : Slot) : Prop
  /-- The slot has not come to the front. -/
  | kept (ready : u.isReady i = s.isReady i) (scheduled : u.isScheduled i = s.isScheduled i)
      (record : u.record i = s.record i) : SlotFate s u i
  /-- The slot has fired. -/
  | fired (scheduled : s.isScheduled i = true) (due : sdiff (s.record i).nextFireUs s.g32 ≤ 0)
      (ready : u.isReady i = true)
      (record : u.record i = if (s.record i).repeating then s.rearmedRecord i else s.record i) :
      SlotFate s u i

/-- Re-arming is done once: it does not depend on the deadline it replaces. -/
theorem rearmedRecord_of_rearmed {s u : State} {i : Slot} (hg : u.g32 = s.g32)
    (h : u.record i = if (s.record i).repeating then s.rearmedRecord i else s.record i) :
    (u.record i).repeating = (s.record i).repeating ∧ u.rearmedRecord i = s.rearmedRecord i := by
  unfold State.rearmedRecord at h ⊢
  rw [h, hg]
  split <;> exact ⟨rfl, rfl⟩

namespace SlotFate

variable {s u v : State} {i : Slot}

/-- What leaves a slot's bits and record alone has no share in its fate. -/
theorem of_same (h : SlotFate s u i) (hready : v.isReady i = u.isReady i)
    (hsched : v.isScheduled i = u.isScheduled i) (hrecord : v.record i = u.record i) :
    SlotFate s v i := by
  cases h with
  | kept hy hs hr => exact .kept (hready.trans hy) (hsched.trans hs) (hrecord.trans hr)
  | fired hs hdue hy hr => exact .fired hs hdue (hready.trans hy) (hrecord.trans hr)

/-- One iteration fires the front and keeps every other slot. -/
theorem fireFront (h : SlotFate s u i) (hg : u.g32 = s.g32) (h16 : u.count.toNat ≤ 16)
    (hd : frontDue u = .ok true) (hf : fireFront u = .ok v) : SlotFate s v i := by
  obtain ⟨hc, -⟩ := fireFront_fired hf
  have hready := fireFront_isReady hf i
  have hrecord := fireFront_record hf i
  by_cases hi : u.front = i
  · subst hi
    have hv : v.isReady u.front = true := by simp [hready]
    simp only [true_and] at hrecord
    cases h with
    | kept _ hs hr =>
      refine .fired (hs ▸ isScheduled_front hc) (hr ▸ hg ▸ due_of_frontDue hc hd) hv ?_
      rw [hrecord, State.rearmedRecord, hr, hg]
      rfl
    | fired hs hdue _ hr =>
      obtain ⟨hrep, hre⟩ := rearmedRecord_of_rearmed hg hr
      refine .fired hs hdue hv ?_
      rw [hrecord, hrep, hre, hr]
      split_ifs <;> rfl
  · refine h.of_same (by simp [hready, hi]) ?_ (hrecord.trans (if_neg fun hfront => hi hfront.1))
    rw [fireFront_isScheduled hf, isScheduled_removeSorted_of_ne h16 hi]
    simp [hi]

theorem reprogrammed (h : SlotFate s u i) (hn : scheduleNextInterval u = .ok v) :
    SlotFate s v i :=
  h.of_same (reprogrammed_isReady hn i) (reprogrammed_isScheduled hn i) (reprogrammed_record hn i)

/-- Ready bits are only set, of scheduled slots only. -/
theorem isReady_cases (h : SlotFate s u i) :
    (s.isReady i = true → u.isReady i = true) ∧
      (u.isReady i = true → s.isReady i = true ∨ s.isScheduled i = true) := by
  cases h with
  | kept hy _ _ => rw [hy]; exact ⟨id, .inl⟩
  | fired hs _ hy _ => exact ⟨fun _ => hy, fun _ => .inr hs⟩

/-- No slot becomes scheduled, and what is so no longer is ready. -/
theorem isScheduled_cases (h : SlotFate s u i) :
    (u.isScheduled i = true → s.isScheduled i = true) ∧
      (s.isScheduled i = true → u.isScheduled i = false → u.isReady i = true) := by
  cases h with
  | kept _ hs _ => rw [hs]; exact ⟨id, fun h1 h0 => absurd h1 (Bool.eq_false_iff.1 h0)⟩
  | fired hs _ hy _ => exact ⟨fun _ => hs, fun _ _ => hy⟩

/-- A record changes by being re-armed, with its slot marked ready. -/
theorem record_cases (h : SlotFate s u i) :
    u.record i = s.record i ∨ (u.isReady i = true ∧ s.isScheduled i = true ∧
      (s.record i).repeating = true ∧ u.record i = s.rearmedRecord i) := by
  cases h with
  | kept _ _ hr => exact .inl hr
  | fired hs _ hy hr =>
    by_cases hrep : (s.record i).repeating = true
    · exact .inr ⟨hy, hs, hrep, hr.trans (if_pos hrep)⟩
    · exact .inl (hr.trans (if_neg hrep))

/-- Where the places are in order and nothing scheduled is due any more, the fates are those of
the slots due and of the others. -/
theorem exact_of_ahead (h : SlotFate s u i) (hp : u.PlaceInv) (ha : u.Ahead)
    (hg : u.g32 = s.g32) :
    u.isReady i = (s.isReady i || s.due i) ∧
      u.isScheduled i = (s.isScheduled i && (!s.due i || (s.record i).repeating)) ∧
      u.record i = if s.due i && (s.record i).repeating then s.rearmedRecord i
        else s.record i := by
  cases h with
  | kept hy hs hr =>
    have hnot : s.due i = false := by
      rw [State.due, Bool.and_eq_false_imp, decide_eq_false_iff_not, ← hs, ← hr, ← hg]
      intro hsched hlate
      have := ahead_iff.1 ha i hsched
      omega
    simp [hnot, hy, hs, hr]
  | fired hs hlate hy hr =>
    have hdue : s.due i = true := by simp [State.due, hs, hlate]
    have hrep : (u.record i).repeating = (s.record i).repeating := by
      rw [hr]; split <;> rfl
    rw [hp.isScheduled_of_ready hy, hrep, hy, hr, hdue, hs]
    simp

end SlotFate

/-- The firing loop leaves every slot one of the two fates and nothing due at the front. -/
theorem fireLoop_fate {fuel : Nat} {s u : State} (hst : s.StoreInv)
    (hu : fireLoop fuel s = .ok u) : (∀ i, SlotFate s u i) ∧ frontDue u = .ok false := by
  obtain ⟨⟨-, -, h⟩, hdone⟩ := fireLoop_induction
    (P := fun u => u.StoreInv ∧ u.g32 = s.g32 ∧ ∀ i, SlotFate s u i)
    (fun u v ⟨hst, hg, h⟩ hd hf => ⟨hst.fireFront hf, (fireFront_g32 hf).trans hg,
      fun i => (h i).fireFront hg hst.countLe hd hf⟩)
    _ _ _ ⟨hst, rfl, fun _ => .kept rfl rfl rfl⟩ hu
  exact ⟨h, hdone⟩

/-- The front the firing loop stops at lies ahead of the tick it has worked at. -/
theorem front_ahead_of_done {s : State} (h : frontDue s = .ok false) (hc : s.count ≠ 0#5) :
    1 ≤ sdiff (deadlineAt s 0) s.g32 := by
  rw [frontDue_of_ne hc] at h
  exact not_le.1 (by simpa only [Except.ok.injEq, decide_eq_false_iff_not] using h)

/-! ### The interrupt operation -/

/-- The state in which the interrupt operation enters the firing loop. -/
def State.servicing (s : State) : State := advanceTick (acknowledgeUpdate s)

/-- An enabled interrupt operation completes: the firing loop, then the reload controller. -/
theorem exec_onTimerUpdate_enabled {s : State} (hst : s.StoreInv) (hf : s.uif = true)
    (he : s.uie = true) :
    ∃ u t, fireLoop 16 s.servicing = .ok u ∧ scheduleNextInterval u = .ok t ∧
      exec .onTimerUpdate s = .next t := by
  obtain ⟨t, ht⟩ := onTimerUpdate_completes hst
  obtain ⟨u, hu, hn⟩ := onTimerUpdate_cases ht
  have hexec : exec .onTimerUpdate s = outcome (onTimerUpdate s) :=
    if_pos ((irqLine_iff s).2 ⟨hf, he⟩)
  exact ⟨u, t, hu, hn, by rw [hexec, ht]; rfl⟩

/-- What the interrupt operation leaves alone, and how it leaves the timer. -/
theorem serviced_frame {s u t : State} (hu : fireLoop 16 s.servicing = .ok u)
    (hn : scheduleNextInterval u = .ok t) :
    TimerReprogrammed s.servicing t ∧ SameControl { s with uif := false } t ∧
      t.free = s.free ∧ t.gen = s.gen ∧ t.outputs = s.outputs := by
  have eu := fireLoop_eq hu
  obtain ⟨htimer, et⟩ := scheduleNextInterval_cases hn
  refine ⟨htimer.of_timer_eq ?_ ?_ ?_, ?_, ?_, ?_, ?_⟩
  · rw [eu]
  · rw [eu]
  · rw [eu]
  · rw [et, eu]
    exact ⟨rfl, rfl, rfl, rfl, rfl, rfl, rfl, rfl, rfl⟩
  all_goals rw [et, eu]; rfl

/-- The front left by the interrupt operation lies ahead of the advanced tick. -/
theorem serviced_front_ahead {s u t : State} (hu : fireLoop 16 s.servicing = .ok u)
    (hdone : frontDue u = .ok false) (hn : scheduleNextInterval u = .ok t) (hc : t.count ≠ 0#5) :
    1 ≤ sdiff (deadlineAt t 0) s.serviceTick := by
  have hg : u.g32 = s.serviceTick := by rw [fireLoop_eq hu]; rfl
  obtain ⟨-, et⟩ := scheduleNextInterval_cases hn
  rw [et] at hc ⊢
  rw [← hg]
  exact front_ahead_of_done hdone hc

/-- Settles O23: the timer and the frame are read from the two parts of the operation, the rest
slot by slot from the fates. -/
theorem interruptOperationCompletes : Obligations.InterruptOperationCompletes := by
  intro s h hf he
  have hst := h.toStoreInv
  obtain ⟨u, t, hu, hn, hexec⟩ := exec_onTimerUpdate_enabled hst hf he
  obtain ⟨hloop, hdone⟩ := fireLoop_fate (hst.of_eq rfl) hu
  have hfate (i : Slot) : SlotFate s.servicing t i := (hloop i).reprogrammed hn
  obtain ⟨htimer, hcontrol, hfree, hgen, hout⟩ := serviced_frame hu hn
  exact ⟨t, hexec, htimer.of_timer_eq rfl rfl rfl, hcontrol, hfree, hgen, hout,
    serviced_front_ahead hu hdone hn, fun i => (hfate i).isReady_cases.1,
    fun i => (hfate i).isReady_cases.2, fun i => (hfate i).isScheduled_cases.1,
    fun i => (hfate i).isScheduled_cases.2, fun i => (hfate i).record_cases⟩

/-- Settles O24: in order and within one window the loop stops with every deadline ahead, so what
it has not fired was not due. -/
theorem interruptFiresExactlyTheDue : Obligations.InterruptFiresExactlyTheDue := by
  intro s h ho hw hf he
  obtain ⟨hcore, hp⟩ := inv_iff.1 h
  have hst := hcore.toStoreInv
  obtain ⟨u, t, hu, hn, hexec⟩ := exec_onTimerUpdate_enabled hst hf he
  refine ⟨t, hexec, fun i due hdue => ?_⟩
  have hdue : due = s.servicing.due i := hdue
  have hg : u.g32 = s.servicing.g32 := by rw [fireLoop_eq hu]; rfl
  have hfree : u.isFree i = s.isFree i := by rw [fireLoop_eq hu]; rfl
  obtain ⟨hready, hsched, hrecord⟩ := ((fireLoop_fate (hst.of_eq rfl) hu).1 i).exact_of_ahead
    (hp.serviced hst hu) (ho.serviced hst hp hw hu).2 hg
  rw [reprogrammed_isReady hn, reprogrammed_isScheduled hn, reprogrammed_isFree hn,
    reprogrammed_record hn, hdue]
  exact ⟨hready, hsched, hfree, hrecord⟩

/-! ### The drain -/

theorem exec_update_accepted {s : State} (hs : s.started = true) (hf : s.faulted = false)
    (ha : s.updActive = false) : exec .update s = outcome (drainStep s) :=
  hostCommand_accepted (gateAccepts_update.2 ⟨hf, hs, ha⟩)

/-- Settles O27: the gate accepts the UPDATE, and its body is one drain step. -/
theorem updateDrainStep : Obligations.UpdateDrainStep := by
  intro s hs hf ha
  rw [exec_update_accepted hs hf ha]
  exact ⟨fun h => by rw [drainStep_empty h]; rfl, fun i h => by
    rw [drainStep_of_lowestReady h]; rfl⟩

theorem exec_cbReturn_enabled {s : State} (ha : s.updActive = true) :
    exec .cbReturn s = outcome (drainStep (finishCallback s)) :=
  if_pos ha

/-- Settles O28: the end of the callback, then one drain step; the end of the callback leaves the
records and the outputs alone. -/
theorem callbackReturnReleasesAndDrains : Obligations.CallbackReturnReleasesAndDrains := by
  intro s ha s1 hs1
  have hfinish : finishCallback s = s1 := hs1.symm
  have hout : s1.outputs = s.outputs := by rw [← hfinish, finishCallback_eq]
  have hrecord (i : Slot) : s1.record i = s.record i := by
    rw [← hfinish, finishCallback_eq]; rfl
  rw [exec_cbReturn_enabled ha, hfinish, ← hout]
  refine ⟨fun h => by rw [drainStep_empty h]; rfl, fun i h => ?_⟩
  rw [drainStep_of_lowestReady h, hrecord]
  rfl

end Sys2Proof.Machine

/-! Errors and refusals (60_exceptions.md). In a state with the invariants a free slot leaves room in
the index, so no step faults (93_implementation_defined.md U9). A registration that fails changes
nothing (R241). A step as a claim reads it (R243, R244, D3): the answers ILLEGAL, REFUSED and FAULT
stop it, and it is the step of the machine otherwise. -/

namespace Sys2Proof.Machine

/-! ### No fault under the invariants -/

/-- The entries of the index are different occupied slots, so a free slot leaves room for one. -/
theorem State.PlaceInv.count_lt_of_free {s : State} (h : s.PlaceInv) {i : Slot}
    (hi : s.isFree i = true) : s.count.toNat < 16 := by
  refine h.count_le_occupied.trans_lt ?_
  conv_rhs => rw [← List.length_range (n := 16)]
  refine List.length_filter_lt_length_iff_exists.2
    ⟨i.toNat, List.mem_range.2 (slot_toNat_lt i), ?_⟩
  simp [hi]

/-- Settles O44: the one fault left needs a free slot beside a full index. -/
theorem noFaultUnderInvariants : Obligations.NoFaultUnderInvariants := by
  intro s f h hf
  obtain ⟨-, hfull, hfree, -⟩ := onlyAFullIndexCanFault s f h.toCoreInv hf
  obtain ⟨i, ⟨hi, -⟩, -⟩ := allocateSlot_lowest h.freeHigh hfree
  exact ((inv_iff.1 h).2.count_lt_of_free hi).ne hfull

/-! ### A registration that fails -/

/-- The clamp makes only 0 into 1, so the bound on the clamped period is one on the period. -/
theorem registrationValid_iff {p : Micros} {cb : Token} :
    registrationValid p cb = true ↔ cb ≠ 0#32 ∧ p.toNat < 2 ^ 31 := by
  refine ⟨fun h => ?_, fun ⟨hcb, hp⟩ => registrationValid_of hcb hp⟩
  obtain ⟨hcb, hlt⟩ : cb ≠ 0#32 ∧ clampPeriod p < Config.kMaxIntervalUs := by
    simpa [registrationValid] using h
  refine ⟨hcb, ?_⟩
  unfold clampPeriod at hlt
  split at hlt
  · rename_i h0
    rw [h0]
    decide
  · exact BitVec.lt_def.1 hlt

/-- A registration of either kind is its body behind the gate. -/
theorem exec_registration_eq (s : State) (rep : Bool) (p : Micros) (cb : Token) :
    exec (if rep then .registerTask p cb else .setTimeout p cb) s =
      hostCommand .callable (registrationBody p cb rep) s := by
  cases rep <;> rfl

/-- Settles O15: two of the causes are invalid arguments, the third an exhausted pool. -/
theorem registrationFailureChangesNothing : Obligations.RegistrationFailureChangesNothing := by
  intro s rep p cb hs hf hcause
  have hfail : registrationValid p cb = false ∨ s.free = 0#32 := by
    rw [← Bool.not_eq_true, registrationValid_iff]
    rcases hcause with hcb | hp | hfree
    · exact .inl fun h => h.1 hcb
    · exact .inl fun h => absurd h.2 (not_lt.2 hp)
    · exact .inr hfree
  rw [exec_registration_eq, callable_accepted hs hf, registrationBody, registerCommon_failure hfail]
  rfl

/-! ### A step as a claim reads it -/

/-- A claim reads a step that went on by what it emitted. -/
theorem claimStep_of_next {s t : State} {os : List Output} (h : step s = .next t)
    (ho : t.outputs = s.outputs ++ os) : claimStep s = claimOutcome os t := by
  simp only [claimStep, h, outputsSince_append ho]

/-- What the machine refuses or faults at, a claim does too. -/
theorem claimStep_eq_step {s : State}
    (h : ∀ t, step s = .next t → claimOutcome (outputsSince s t) t = .next t) :
    claimStep s = step s := by
  unfold claimStep
  cases hs : step s with
  | next t => exact h t hs
  | fault f => rfl
  | refused r => rfl

/-- Of what an operation emits only REFUSED and FAULT stop a claim. -/
theorem Emission.claimOutcome_eq {s t : State} {i : Instr} (he : Emission s i t)
    (hr : i.source = .commandPort → ¬ gateRefuses s i)
    (hc : i = .start → t ≠ raiseConfigFault s) : claimOutcome (outputsSince s t) t = .next t := by
  cases he with
  | silent _ ho => rw [outputsSince_append (os := []) (by rw [ho, List.append_nil])]; rfl
  | ok _ ho | drained _ ho => rw [outputsSince_append ho]; rfl
  | dispatched _ hd => rw [outputsSince_append hd.2]; rfl
  | refused hi hg => exact absurd hg (hr hi)
  | configFault => exact absurd rfl (hc rfl)

/-- START faults on an invalid clock only. -/
theorem not_clockValid_of_raiseConfigFault {s : State}
    (h : startBody s = .ok (raiseConfigFault s)) : ¬ clockValid s.platform := by
  rcases startBody_cases h with ⟨hp, -⟩ | ⟨v, u, -, -, e⟩
  · exact (prescalerOf_eq_none_iff _).1 hp
  · have hlast := congrArg (fun t : State => t.outputs.getLast?) e
    simp at hlast

/-- An operation that is no command the table refuses and no START on an invalid clock is read as
the machine performs it. -/
theorem claimStep_of_perform {s : State} {x : Stimulus} {rest : List Stimulus} {i : Instr}
    (hs : s.stimuli = x :: rest) (hx : readStimulus x = .perform i)
    (hr : i.source = .commandPort → ¬ gateRefuses s i)
    (hc : i = .start → clockValid s.platform) : claimStep s = step s := by
  refine claimStep_eq_step fun t ht => ?_
  rw [step_of_readStimulus_perform hs hx] at ht
  refine (emission_of_exec ht).claimOutcome_eq hr ?_
  rintro rfl rfl
  rcases hostCommand_next ht with ⟨-, hb⟩ | ⟨hg, -⟩
  · exact not_clockValid_of_raiseConfigFault hb (hc rfl)
  · exact Bool.eq_false_iff.1 hg ((gateAccepts_iff (i := .start) _).2 (hr rfl))

/-- A word on the command port that is no host command is answered ILLEGAL. -/
theorem step_of_no_command {s : State} {x : Stimulus} {rest : List Stimulus}
    (hs : s.stimuli = x :: rest) (hx : x.source = .commandPort)
    (hd : ∀ i, decode x.word = .ok i → i.source ≠ .commandPort) :
    step s = .next (answerIllegal { s with stimuli := rest }) := by
  have hill : x.wellFormed = false := by
    refine Bool.eq_false_iff.2 fun hw => ?_
    obtain ⟨i, hi⟩ := (wellFormed_iff_perform x).1 hw
    obtain ⟨hdecode, hsource⟩ := readStimulus_perform hi
    exact hd i hdecode (hsource.trans hx)
  rw [step_of_not_wellFormed hs hill, hx]

/-- A START that the gate accepts, on an invalid clock. -/
theorem exec_start_of_not_clockValid {s : State} (hr : ¬ gateRefuses s .start)
    (hc : ¬ clockValid s.platform) : exec .start s = .next (raiseConfigFault s) := by
  rw [exec_eq_hostCommand rfl, hostCommand_accepted ((gateAccepts_iff s).2 hr), commandBody,
    startBody_of_no_prescaler ((prescalerOf_eq_none_iff _).2 hc)]
  rfl

/-- A recorded event, and the lack of a stimulus, are read as the machine takes them. -/
theorem claimStep_of_environment {s : State} (h : ∀ x ∈ s.stimuli.head?, x.source = .environment) :
    claimStep s = step s := by
  cases hs : s.stimuli with
  | nil =>
    refine claimStep_eq_step fun t ht => ?_
    obtain rfl : s = t := by simpa [step, hs] using ht
    rw [outputsSince_self]
    rfl
  | cons x rest =>
    have hx : x.source = .environment := h x (by rw [hs]; rfl)
    rcases readStimulus_cases x with ⟨i, hi⟩ | hrej
    · have hsource : i.source = .environment := (readStimulus_perform hi).2.trans hx
      refine claimStep_of_perform hs hi (fun hc => ?_) ?_
      · cases hsource.symm.trans hc
      · rintro rfl
        cases hsource
    · rw [hx] at hrej
      have hstep : step s = .refused .malformedEvent := by simp [step, hs, hrej, rejection]
      exact claimStep_eq_step fun t ht => nomatch hstep.symm.trans ht

/-- Settles O12: each answer that is not OK is the one emission of its step. -/
theorem claimsExcludeAnswersThatAreNotOk : Obligations.ClaimsExcludeAnswersThatAreNotOk := by
  refine ⟨fun s x rest hs hx => ⟨fun hd => ?_, fun i hdecode hi => ?_⟩,
    fun s => claimStep_of_environment⟩
  · exact claimStep_of_next (step_of_no_command hs hx hd) rfl
  · have hread : readStimulus x = .perform i := readStimulus_of_decode hdecode (hi.trans hx.symm)
    have hstep := step_of_readStimulus_perform hs hread
    refine ⟨fun hr => ?_, ?_, fun hr hc => claimStep_of_perform hs hread (fun _ => hr) hc⟩
    · exact claimStep_of_next (hstep.trans (gateAndEnabling.1 _ i hi hr)) rfl
    · rintro hr rfl hc
      exact claimStep_of_next (hstep.trans (exec_start_of_not_clockValid hr hc)) rfl

end Sys2Proof.Machine

/-! Reset and hazards (70_reset_and_hazards.md). Before START no event is enabled, and the gate
refuses every command but START; a faulted block is not started, and its gate refuses START too
(R280; 60_exceptions.md R243). A record reused while its callback is in flight is released in the
index (R298). -/

namespace Sys2Proof.Machine

/-! ### Before START and after a configuration fault -/

/-- An event is enabled in a started block only. -/
theorem Effect.started_of_event {s t : State} {i : Instr} (he : Effect s i t) (h : s.CoreInv)
    (hi : i.source = .environment) : s.started = true := by
  cases he with
  | answered hc => cases hi.symm.trans hc
  | configFault | started | drained => cases hi
  | registered hs | removed _ hs | reloaded hs | counted hs => exact hs
  | returned ha => exact h.started_of_active ha
  | interrupted hf => exact h.started_of_uif hf

theorem State.CoreInv.not_started_of_faulted {s : State} (h : s.CoreInv)
    (hf : s.faulted = true) : s.started = false :=
  Bool.eq_false_iff.2 fun hs => Bool.eq_false_iff.1 (h.notFaulted hs) hf

/-- In an inert block an operation that goes on at all is a command, and the gate refuses it. -/
theorem exec_inert {s t : State} {i : Instr} (h : s.CoreInv)
    (hinert : s.faulted = true ∨ (s.started = false ∧ i ≠ .start)) (he : exec i s = .next t) :
    t = answerRefused s := by
  have hs : s.started = false := hinert.elim h.not_started_of_faulted And.left
  have hr : gateRefuses s i := hinert.imp_right .inl
  cases hi : i.source with
  | environment =>
    exact absurd ((effect_of_exec he).started_of_event h hi) (Bool.eq_false_iff.1 hs)
  | commandPort =>
    rw [gateAndEnabling.1 s i hi hr] at he
    cases he
    rfl

/-- Settles O11: a step finds no stimulus, a command the gate refuses, or a word that is none. -/
theorem inertBeforeStartAndAfterFault : Obligations.InertBeforeStartAndAfterFault := by
  intro s t h hinert hstep
  rcases step_cases hstep with ⟨hnil, rfl⟩ | ⟨i, hi, he⟩ | ⟨x, -, -, rfl⟩
  · exact ⟨by rw [hnil, List.tail_nil, ← hnil], .inl rfl⟩
  · have htail : s.tail.CoreInv := h.withStreams s.stimuli.tail s.outputs
    have hne (hn : ¬ s.nextIs .start) : i ≠ .start := fun e => hn (e ▸ hi)
    obtain rfl := exec_inert htail (hinert.imp_right (And.imp_right hne)) he
    exact ⟨rfl, .inr (.inl rfl)⟩
  · exact ⟨rfl, .inr (.inr rfl)⟩

/-! ### A record reused while its callback is in flight -/

/-- A drain step writes neither `free` nor the index. -/
theorem drainStep_free_index {s t : State} (h : drainStep s = .ok t) (j : Slot) :
    t.isFree j = s.isFree j ∧ t.isScheduled j = s.isScheduled j := by
  rw [drainStep_eq h]
  exact ⟨rfl, rfl⟩

/-- A drain step needs no more than V1 for `ready` to end in a next state. -/
theorem drainStep_completes_of_readyHigh {s : State} (h : s.ready.extractLsb' 16 16 = 0#16) :
    ∃ t, drainStep s = .ok t := by
  by_cases hready : s.ready = 0#32
  · exact ⟨_, drainStep_empty hready⟩
  · obtain ⟨i, -, hd⟩ := drainStep_lowest h hready
    exact ⟨_, hd⟩

/-- Settles O29: the release sets the slot's free bit and leaves the index alone, and the drain step
after it writes neither. -/
theorem reusedRecordIsFreedWhileScheduled : Obligations.ReusedRecordIsFreedWhileScheduled := by
  intro s ha hhigh hrep hsched
  have hfinish : finishCallback s = releaseSlot s.updSlot s := by simp [finishCallback, hrep]
  obtain ⟨t, hd⟩ : ∃ t, drainStep (releaseSlot s.updSlot s) = .ok t :=
    drainStep_completes_of_readyHigh ((clearBit_high s.ready s.updSlot).trans hhigh)
  obtain ⟨hfree, hindex⟩ := drainStep_free_index hd s.updSlot
  refine ⟨t, ?_, ?_, ?_⟩
  · rw [exec_cbReturn_enabled ha, hfinish, hd]
    rfl
  · simp [hfree]
  · rw [hindex, isScheduled_releaseSlot, hsched]

end Sys2Proof.Machine
